-- ==== Sys2Proof/Word.lean ====
section
/-! DEFINITION. The two widths the spec moves data in: a byte (R11) and the 32-bit request word (R70). -/

namespace Sys2Proof

/-- A byte is 8 bits and unsigned unless a rule says otherwise (R11). -/
abbrev Byte := BitVec 8

/-- The request word `REQ` is one 32-bit value, bit 0 least significant (R70). -/
abbrev Word := BitVec 32

end Sys2Proof
end

