-- ==== Sys2Proof/Config.lean ====
section
/-! DEFINITION. The implementation parameters of 00_scope.md: the values R8 and R9 fix, as constants, and the
values R9 leaves open, as the record `Params` that State carries. -/

namespace Sys2Proof.Config

/-- `KEY_SLOTS`, the number of key slots (R8). -/
def keySlots : Nat := 6

/-- `ASCII_ENTRIES`, the number of entries of `ASCII_MAP` (R8). -/
def asciiEntries : Nat := 128

/-- `CR`, the terminator of a response line (R8). -/
def cr : Byte := 0x0D#8

/-- `FRAME_START`, the first byte of every frame (R8). -/
def frameStart : Byte := 0xFD#8

/-- `ESCAPE_SEQ`, the three bytes `$$$` (R8). -/
def escapeSeq : List Byte := [0x24#8, 0x24#8, 0x24#8]

/-- `ENTRY_PREFIX`, the zero byte sent before `ESCAPE_SEQ` (R8). -/
def entryPrefix : List Byte := [0x00#8]

/-- `CMD_OK`, the three bytes `CMD` (R8). -/
def cmdOk : List Byte := [0x43#8, 0x4D#8, 0x44#8]

/-- `EXIT_SEQ`, the four bytes `---\r` (R8). -/
def exitSeq : List Byte := [0x2D#8, 0x2D#8, 0x2D#8, 0x0D#8]

/-- `MOUSE_ID`, the report id of the mouse (R8). -/
def mouseId : Byte := 1#8

/-- `KEYBOARD_ID`, the report id of the keyboard (R8). -/
def keyboardId : Byte := 2#8

/-- `MOUSE_REPORT_LEN`, the mouse report's length before the id (R8). -/
def mouseReportLen : Nat := 4

/-- `KEYBOARD_REPORT_LEN`, the keyboard report's length before the id (R8). -/
def keyboardReportLen : Nat := 8

/-- `MOD_BASE`, the first modifier code, which R9 fixes (PRESUMED by the spec itself, log 6; unsafe). -/
def modBase : Byte := 128#8

/-- `NP_BASE = MOD_BASE + 8`, the first non-printing code, which R9 fixes (PRESUMED by the spec itself,
log 6; unsafe). -/
def npBase : Byte := 136#8

end Sys2Proof.Config

namespace Sys2Proof

/-- One entry of `ASCII_MAP`: an 8-bit usage, 0 meaning unmapped, and the shift-required flag (R26). -/
structure AsciiEntry where
  usage : Byte
  shift : Bool
deriving DecidableEq, Repr

/-- The parameters R9 leaves open, but for `ASCII_MAP`, which R20 lists as state. The model takes them as data:
State holds one `Params`, no step changes it, and a statement about every state holds for every choice (log 4). -/
structure Params where
  /-- `RESP_CAP`, the capacity of the response-line buffer in bytes (D7). -/
  respCap : Nat
  /-- `OPERAND_CAP`, the capacity of the operand buffer in bytes, at most 65535 (D15). -/
  operandCap : Fin 65536
  /-- `TIMEOUT_ENABLED`, whether a line read may end by timeout (D8). -/
  timeoutEnabled : Bool
  /-- `LSHIFT_MASK`, the left-shift modifier bit (D11). -/
  lshiftMask : Byte
  /-- `BUTTON_LEFT` (D13). -/
  buttonLeft : Byte
  /-- `BUTTON_RIGHT` (D13). -/
  buttonRight : Byte
  /-- `BUTTON_MIDDLE` (D13). -/
  buttonMiddle : Byte
deriving DecidableEq, Repr

/-- The defaults of R9. `RESP_CAP` and `OPERAND_CAP` are OPEN there: 65535 for both is a DESIGN CHOICE (log 4;
unsafe for a claim about this one record). `LSHIFT_MASK` and the button masks are PRESUMED by the spec itself
(log 5; unsafe). -/
def Params.default : Params where
  respCap := 65535
  operandCap := 65535
  timeoutEnabled := false
  lshiftMask := 0x02#8
  buttonLeft := 0x01#8
  buttonRight := 0x02#8
  buttonMiddle := 0x04#8

end Sys2Proof
end

