-- ==== Sys2Proof/Syntax.lean ====
section
/-! DEFINITION. The operations of the block: one constructor of `Instr` per row of spec/opcode_table.json
(R77), with its operands at the widths of R71; the operation names; the formats; and the request that spells an
operation. -/

namespace Sys2Proof

/-- The 18 operation names of the opcode map (R77). -/
inductive Op where
  | kbPress | kbRelease | kbReleaseAll | kbWrite
  | msMove | msClick | msPress | msRelease | msIsPressed
  | rlEnterCmd | rlSendCmd | rlExitCmd | rlSendReport | rlSendControl
  | hidSendReport | hidGetInterface | hidGetDescriptor | hidSetup
deriving DecidableEq, Repr

/-- The request formats (R71); `s0` is format S with `X = 0` required. -/
inductive Format where
  | n | k | b | m | s0 | s
deriving DecidableEq, Repr

/-- One operation with its operands (R72 to R76). -/
inductive Instr where
  /-- KB_PRESS code (R103). -/
  | kbPress (code : Byte)
  /-- KB_RELEASE code (R104). -/
  | kbRelease (code : Byte)
  /-- KB_RELEASE_ALL (R105). -/
  | kbReleaseAll
  /-- KB_WRITE code (R106). -/
  | kbWrite (code : Byte)
  /-- MS_MOVE dx, dy, dw (R131). -/
  | msMove (dx dy dw : Byte)
  /-- MS_CLICK mask (R132). -/
  | msClick (mask : Byte)
  /-- MS_PRESS mask (R133). -/
  | msPress (mask : Byte)
  /-- MS_RELEASE mask (R134). -/
  | msRelease (mask : Byte)
  /-- MS_IS_PRESSED mask (R135). -/
  | msIsPressed (mask : Byte)
  /-- RL_ENTER_CMD (R153, R154). -/
  | rlEnterCmd
  /-- RL_SEND_CMD text (R155, R156). -/
  | rlSendCmd (text : List Byte)
  /-- RL_EXIT_CMD (R157). -/
  | rlExitCmd
  /-- RL_SEND_REPORT bytes (R158). -/
  | rlSendReport (bytes : List Byte)
  /-- RL_SEND_CONTROL flags, bytes (R159). -/
  | rlSendControl (flags : Byte) (bytes : List Byte)
  /-- HID_SEND_REPORT id, data (R181). -/
  | hidSendReport (id : Byte) (data : List Byte)
  /-- HID_GET_INTERFACE (R182). -/
  | hidGetInterface
  /-- HID_GET_DESCRIPTOR (R183). -/
  | hidGetDescriptor
  /-- HID_SETUP (R184). -/
  | hidSetup
deriving DecidableEq, Repr

/-- What the host puts into the request latch: the word `REQ` and the operand bytes `OPND` (R70). -/
structure Request where
  word : Word
  opnd : List Byte
deriving DecidableEq, Repr

/-- The operation an instruction is an instance of (R77). -/
def Instr.op : Instr → Op
  | .kbPress _ => .kbPress
  | .kbRelease _ => .kbRelease
  | .kbReleaseAll => .kbReleaseAll
  | .kbWrite _ => .kbWrite
  | .msMove _ _ _ => .msMove
  | .msClick _ => .msClick
  | .msPress _ => .msPress
  | .msRelease _ => .msRelease
  | .msIsPressed _ => .msIsPressed
  | .rlEnterCmd => .rlEnterCmd
  | .rlSendCmd _ => .rlSendCmd
  | .rlExitCmd => .rlExitCmd
  | .rlSendReport _ => .rlSendReport
  | .rlSendControl _ _ => .rlSendControl
  | .hidSendReport _ _ => .hidSendReport
  | .hidGetInterface => .hidGetInterface
  | .hidGetDescriptor => .hidGetDescriptor
  | .hidSetup => .hidSetup

/-- The operand bytes an instruction carries in `OPND`: those of the four S-format operations, none otherwise
(R72, R76). -/
def Instr.operandBytes : Instr → List Byte
  | .rlSendCmd text => text
  | .rlSendReport bytes => bytes
  | .rlSendControl _ bytes => bytes
  | .hidSendReport _ data => data
  | .kbPress _ => []
  | .kbRelease _ => []
  | .kbReleaseAll => []
  | .kbWrite _ => []
  | .msMove _ _ _ => []
  | .msClick _ => []
  | .msPress _ => []
  | .msRelease _ => []
  | .msIsPressed _ => []
  | .rlEnterCmd => []
  | .rlExitCmd => []
  | .hidGetInterface => []
  | .hidGetDescriptor => []
  | .hidSetup => []

end Sys2Proof
end

