-- ==== Sys2Proof/WellFormed.lean ====
section
/-! DEFINITION. Which instructions a request can spell: every key code, mask, motion byte, flags byte and
report id is legal (R73 to R76), so the one check is that an operand sequence fits the operand buffer (R76, R78),
whose capacity is at most 65535 (R9) and so fits the 16-bit `LEN`. -/

namespace Sys2Proof

/-- The operand sequence fits an operand buffer of `cap` bytes (R76, R78). -/
def operandFits (cap : Fin 65536) (bytes : List Byte) : Bool :=
  bytes.length ≤ cap.val

/-- `i` is spelled by some request to a block whose `OPERAND_CAP` is `cap` (R78). -/
def Instr.wellFormed (cap : Fin 65536) : Instr → Bool
  | .rlSendCmd text => operandFits cap text
  | .rlSendReport bytes => operandFits cap bytes
  | .rlSendControl _ bytes => operandFits cap bytes
  | .hidSendReport _ data => operandFits cap data
  | .kbPress _ => true
  | .kbRelease _ => true
  | .kbReleaseAll => true
  | .kbWrite _ => true
  | .msMove _ _ _ => true
  | .msClick _ => true
  | .msPress _ => true
  | .msRelease _ => true
  | .msIsPressed _ => true
  | .rlEnterCmd => true
  | .rlExitCmd => true
  | .hidGetInterface => true
  | .hidGetDescriptor => true
  | .hidSetup => true

end Sys2Proof
end

