-- ==== Sys2Proof/Decode.lean ====
section
/-! DEFINITION. Decoding a request (R78), total on every word and operand sequence and rejecting by name (R79);
the encoder, written from the same formats (R71); the byte order of a request word on a byte-wide bus (R53); and
the opcode table's own numbering of the words. -/

namespace Sys2Proof

/-- Why a request spells no operation: the four kinds of illegal encoding of R79. The spec has the one answer
`Illegal`, and every kind has the same effect (R206); the names are the model's own (DESIGN CHOICE, log 19; safe). -/
inductive IllegalRequest where
  /-- `REQ[7:0]` is no opcode of R77. -/
  | unassignedOpcode
  /-- A reserved field of format N, K, B, or `X` of format S0, is not zero. -/
  | reservedField
  /-- `LEN` differs from the number of operand bytes. -/
  | lengthMismatch
  /-- `LEN`, or the operand sequence of any format, exceeds `OPERAND_CAP` (R79, U8; log 22). -/
  | overCapacity
deriving DecidableEq, Repr

/-- The opcode byte of each operation (R77). -/
def Op.code : Op → Byte
  | .kbPress => 0x01#8
  | .kbRelease => 0x02#8
  | .kbReleaseAll => 0x03#8
  | .kbWrite => 0x04#8
  | .msMove => 0x10#8
  | .msClick => 0x11#8
  | .msPress => 0x12#8
  | .msRelease => 0x13#8
  | .msIsPressed => 0x14#8
  | .rlEnterCmd => 0x20#8
  | .rlSendCmd => 0x21#8
  | .rlExitCmd => 0x22#8
  | .rlSendReport => 0x23#8
  | .rlSendControl => 0x24#8
  | .hidSendReport => 0x30#8
  | .hidGetInterface => 0x31#8
  | .hidGetDescriptor => 0x32#8
  | .hidSetup => 0x33#8

/-- The format of each operation (R77). -/
def Op.format : Op → Format
  | .kbPress => .k
  | .kbRelease => .k
  | .kbReleaseAll => .n
  | .kbWrite => .k
  | .msMove => .m
  | .msClick => .b
  | .msPress => .b
  | .msRelease => .b
  | .msIsPressed => .b
  | .rlEnterCmd => .n
  | .rlSendCmd => .s0
  | .rlExitCmd => .n
  | .rlSendReport => .s0
  | .rlSendControl => .s
  | .hidSendReport => .s
  | .hidGetInterface => .n
  | .hidGetDescriptor => .n
  | .hidSetup => .n

/-- Every operation, in the order of R77. -/
def Op.all : List Op :=
  [.kbPress, .kbRelease, .kbReleaseAll, .kbWrite, .msMove, .msClick, .msPress, .msRelease, .msIsPressed,
   .rlEnterCmd, .rlSendCmd, .rlExitCmd, .rlSendReport, .rlSendControl,
   .hidSendReport, .hidGetInterface, .hidGetDescriptor, .hidSetup]

/-- The operation of an opcode byte, if R77 lists it. -/
def Op.ofByte? (b : Byte) : Option Op :=
  Op.all.find? (fun o => o.code == b)

/-- `OP = REQ[7:0]` (R70). -/
def opField (req : Word) : Byte := req.extractLsb' 0 8

/-- `REQ[15:8]`: CODE, MASK, DX or X (R71). -/
def xField (req : Word) : Byte := req.extractLsb' 8 8

/-- `REQ[23:16]`: DY (R71). -/
def dyField (req : Word) : Byte := req.extractLsb' 16 8

/-- `REQ[31:24]`: DW (R71). -/
def dwField (req : Word) : Byte := req.extractLsb' 24 8

/-- `LEN = REQ[31:16]`, an unsigned count (R71, R76). -/
def lenField (req : Word) : Nat := (req.extractLsb' 16 16).toNat

/-- `REQ[31:8]`, reserved in format N (R71). -/
def reservedN (req : Word) : BitVec 24 := req.extractLsb' 8 24

/-- `REQ[31:16]`, reserved in formats K and B (R71). -/
def reservedKB (req : Word) : BitVec 16 := req.extractLsb' 16 16

/-- The operand count check of format S (R78). -/
def checkLength (cap : Fin 65536) (req : Word) (opnd : List Byte) : Option IllegalRequest :=
  if lenField req ≠ opnd.length then some .lengthMismatch
  else if lenField req > cap.val then some .overCapacity
  else none

/-- The checks of R78 that a request of format `f` must pass; `none` means it passes. -/
def formatCheck (f : Format) (cap : Fin 65536) (req : Word) (opnd : List Byte) : Option IllegalRequest :=
  match f with
  | .n => if reservedN req ≠ 0#24 then some .reservedField else none
  | .k => if reservedKB req ≠ 0#16 then some .reservedField else none
  | .b => if reservedKB req ≠ 0#16 then some .reservedField else none
  | .m => none
  | .s0 => if xField req ≠ 0#8 then some .reservedField else checkLength cap req opnd
  | .s => checkLength cap req opnd

/-- `op(OP, fields, OPND)`: the operation with the operands its format assembles (R72 to R76). -/
def assembleOperands (o : Op) (req : Word) (opnd : List Byte) : Instr :=
  match o with
  | .kbPress => .kbPress (xField req)
  | .kbRelease => .kbRelease (xField req)
  | .kbReleaseAll => .kbReleaseAll
  | .kbWrite => .kbWrite (xField req)
  | .msMove => .msMove (xField req) (dyField req) (dwField req)
  | .msClick => .msClick (xField req)
  | .msPress => .msPress (xField req)
  | .msRelease => .msRelease (xField req)
  | .msIsPressed => .msIsPressed (xField req)
  | .rlEnterCmd => .rlEnterCmd
  | .rlSendCmd => .rlSendCmd opnd
  | .rlExitCmd => .rlExitCmd
  | .rlSendReport => .rlSendReport opnd
  | .rlSendControl => .rlSendControl (xField req) opnd
  | .hidSendReport => .hidSendReport (xField req) opnd
  | .hidGetInterface => .hidGetInterface
  | .hidGetDescriptor => .hidGetDescriptor
  | .hidSetup => .hidSetup

/-- The checks of R78 and the operation they let through, for an operand sequence that fits the operand buffer.
Within the buffer's size `OPND` is looked at in format S only, as R78 writes it (DEDUCED, log 10; unsafe). -/
def decodeFitting (cap : Fin 65536) (req : Word) (opnd : List Byte) : Except IllegalRequest Instr :=
  match Op.ofByte? (opField req) with
  | none => .error .unassignedOpcode
  | some o =>
    match formatCheck o.format cap req opnd with
    | some why => .error why
    | none => .ok (assembleOperands o req opnd)

/-- `Decode(REQ, OPND)` for a block whose `OPERAND_CAP` is `cap` (R78). A sequence longer than the operand buffer is
refused as illegal in every format, by the bound of R32 and the treatment U8 names (DEDUCED for the formats other than
S, log 22; safe). -/
def decode (cap : Fin 65536) (req : Word) (opnd : List Byte) : Except IllegalRequest Instr :=
  if operandFits cap opnd then decodeFitting cap req opnd else .error .overCapacity

/-- A field `v` at bit `lo` of an otherwise zero request word (R11, R71). -/
def place (lo : Nat) {n : Nat} (v : BitVec n) : Word := v.setWidth 32 <<< lo

/-- A format N word: every bit above the opcode is 0 (R71). -/
def wordN (o : Op) : Word := place 0 o.code

/-- A format K or B word (R71). -/
def wordKB (o : Op) (x : Byte) : Word := place 8 x ||| place 0 o.code

/-- A format M word (R71). -/
def wordM (o : Op) (dx dy dw : Byte) : Word := place 24 dw ||| place 16 dy ||| place 8 dx ||| place 0 o.code

/-- A format S word: `LEN` is the operand count, kept to 16 bits (R71). -/
def wordS (o : Op) (x : Byte) (opnd : List Byte) : Word :=
  place 16 (BitVec.ofNat 16 opnd.length) ||| place 8 x ||| place 0 o.code

/-- The request that spells an instruction (R71, R77). -/
def encode : Instr → Request
  | .kbPress code => ⟨wordKB .kbPress code, []⟩
  | .kbRelease code => ⟨wordKB .kbRelease code, []⟩
  | .kbReleaseAll => ⟨wordN .kbReleaseAll, []⟩
  | .kbWrite code => ⟨wordKB .kbWrite code, []⟩
  | .msMove dx dy dw => ⟨wordM .msMove dx dy dw, []⟩
  | .msClick mask => ⟨wordKB .msClick mask, []⟩
  | .msPress mask => ⟨wordKB .msPress mask, []⟩
  | .msRelease mask => ⟨wordKB .msRelease mask, []⟩
  | .msIsPressed mask => ⟨wordKB .msIsPressed mask, []⟩
  | .rlEnterCmd => ⟨wordN .rlEnterCmd, []⟩
  | .rlSendCmd text => ⟨wordS .rlSendCmd 0#8 text, text⟩
  | .rlExitCmd => ⟨wordN .rlExitCmd, []⟩
  | .rlSendReport bytes => ⟨wordS .rlSendReport 0#8 bytes, bytes⟩
  | .rlSendControl flags bytes => ⟨wordS .rlSendControl flags bytes, bytes⟩
  | .hidSendReport id data => ⟨wordS .hidSendReport id data, data⟩
  | .hidGetInterface => ⟨wordN .hidGetInterface, []⟩
  | .hidGetDescriptor => ⟨wordN .hidGetDescriptor, []⟩
  | .hidSetup => ⟨wordN .hidSetup, []⟩

/-- A request word over a byte-wide bus: `REQ[7:0]` goes first (R53). -/
def busBytes (req : Word) : List Byte := [opField req, xField req, dyField req, dwField req]

/-- The request word that four bytes of a byte-wide bus carry, the first byte in `REQ[7:0]` (R53). -/
def wordOfBus (b0 b1 b2 b3 : Byte) : Word := place 24 b3 ||| place 16 b2 ||| place 8 b1 ||| place 0 b0

/-- The request that a byte-wide bus delivers: the word's four bytes, then the operand bytes (R53). -/
def requestOfBus : List Byte → Option Request
  | b0 :: b1 :: b2 :: b3 :: opnd => some ⟨wordOfBus b0 b1 b2 b3, opnd⟩
  | _ => none

/-- How many operand bytes the word announces: `LEN` in format S, none otherwise (R80). -/
def announcedOperands (req : Word) : Nat :=
  match (Op.ofByte? (opField req)).map Op.format with
  | some .s0 => lenField req
  | some .s => lenField req
  | _ => 0

/-- An instruction of the opcode table's numbering as the bytes the hardware is given: the low `nbits` of `w` are
the request word, its low byte first, and the operand bytes above it, which the table gives no bits, are zeros
(R53, log 17). -/
def tableBytes (nbits w : Nat) : List Byte :=
  let req : Word := BitVec.ofNat 32 (w % 2 ^ nbits)
  busBytes req ++ List.replicate (announcedOperands req) 0#8

/-- The instruction the decoder reads from an instruction whose bits are `w` as spec/opcode_table.json numbers
them, for the default `OPERAND_CAP`. -/
def decodeTableWord (nbits w : Nat) : Option Instr :=
  match requestOfBus (tableBytes nbits w) with
  | none => none
  | some r =>
    match decode Params.default.operandCap r.word r.opnd with
    | .ok i => some i
    | .error _ => none

end Sys2Proof
end

