-- ==== Sys2Proof/Machine/Rom.lean ====
section
/-! DEFINITION. The default content of the read-only table `ASCII_MAP` (R27). The table itself is the field
`State.asciiMap`; this file says what it holds at power-on. PRESUMED by the spec itself ("from general knowledge,
not in source"; log 5): unsafe for a claim about this one table, so a claim that depends on an entry takes the
entry as a premise about `s.asciiMap` (R27). -/

namespace Sys2Proof.Machine

/-- An entry of R27 with shift 0. -/
def plainKey (usage : Byte) : AsciiEntry := ⟨usage, false⟩

/-- An entry of R27 with shift 1. -/
def shiftKey (usage : Byte) : AsciiEntry := ⟨usage, true⟩

/-- A code that R27 does not list: usage 0, unmapped. -/
def unmappedKey : AsciiEntry := ⟨0x00#8, false⟩

/-- `n` entries whose usages ascend from `first` (the rows of R27 for the digits and the letters). -/
def ascending (key : Byte → AsciiEntry) (first n : Nat) : List AsciiEntry :=
  (List.range n).map (fun i => key (BitVec.ofNat 8 (first + i)))

/-- 0x00..0x1F: BS, TAB and LF are mapped, all else is unmapped (R27). -/
def defaultControls : List AsciiEntry :=
  List.replicate 8 unmappedKey ++ [plainKey 0x2A#8, plainKey 0x2B#8, plainKey 0x28#8]
    ++ List.replicate 21 unmappedKey

/-- 0x20..0x2F, space to `/` (R27). -/
def defaultPunctuation : List AsciiEntry :=
  [plainKey 0x2C#8, shiftKey 0x1E#8, shiftKey 0x34#8, shiftKey 0x20#8,
   shiftKey 0x21#8, shiftKey 0x22#8, shiftKey 0x24#8, plainKey 0x34#8,
   shiftKey 0x26#8, shiftKey 0x27#8, shiftKey 0x25#8, shiftKey 0x2E#8,
   plainKey 0x36#8, plainKey 0x2D#8, plainKey 0x37#8, plainKey 0x38#8]

/-- 0x30..0x40, the digits, then `:` to `@` (R27). -/
def defaultDigits : List AsciiEntry :=
  [plainKey 0x27#8] ++ ascending plainKey 0x1E 9
    ++ [shiftKey 0x33#8, plainKey 0x33#8, shiftKey 0x36#8, plainKey 0x2E#8,
        shiftKey 0x37#8, shiftKey 0x38#8, shiftKey 0x1F#8]

/-- 0x41..0x60, the capital letters, then `[` to the grave accent (R27). -/
def defaultCapitals : List AsciiEntry :=
  ascending shiftKey 0x04 26
    ++ [plainKey 0x2F#8, plainKey 0x31#8, plainKey 0x30#8, shiftKey 0x23#8, shiftKey 0x2D#8, plainKey 0x35#8]

/-- 0x61..0x7F, the small letters, the last four signs, and DEL, which is unmapped (R27). -/
def defaultSmalls : List AsciiEntry :=
  ascending plainKey 0x04 26
    ++ [shiftKey 0x2F#8, shiftKey 0x31#8, shiftKey 0x30#8, shiftKey 0x35#8, unmappedKey]

/-- The default `ASCII_MAP` of R27. -/
def defaultAsciiMap : Vector AsciiEntry 128 :=
  ⟨(defaultControls ++ defaultPunctuation ++ defaultDigits ++ defaultCapitals ++ defaultSmalls).toArray, rfl⟩

end Sys2Proof.Machine
end

