-- ==== Sys2Proof/Machine/State.lean ====
section
/-! DEFINITION. The state of the block and of its environment, as plain data (10_state.md), the stops of the step,
and the state after reset (R39). -/

namespace Sys2Proof.Machine

/-- The values of `MODE`, encoded 0 = Data and 1 = Command (R21). The radio's actual mode has the same two
values (R36). -/
inductive RadioMode where
  | data
  | command
deriving DecidableEq, Repr

/-- Which exchange a line read belongs to (R29). -/
inductive Exchange where
  /-- RL_ENTER_CMD is waiting for its response line. -/
  | enter
  /-- RL_SEND_CMD is waiting for its response line. -/
  | cmd
deriving DecidableEq, Repr

/-- The sequencer state `PHASE` (R29). -/
inductive Phase where
  | idle
  | readLine (k : Exchange)
  | halted
deriving DecidableEq, Repr

/-- The key-slot file `KEYS[0..5]`; a slot that holds 0 is empty (R23). -/
structure KeyFile where
  k0 : Byte
  k1 : Byte
  k2 : Byte
  k3 : Byte
  k4 : Byte
  k5 : Byte
deriving DecidableEq, Repr

/-- One turn of one agent (R10): what happens next, and who does it. The model's own way to hold the environment's
free choices as data (DESIGN CHOICE, log 2; safe: every list of turns is a state). -/
inductive Turn where
  /-- The block's step (R38). -/
  | block
  /-- The block's step while the environment offers a timeout event (R38, R207). -/
  | timeout
  /-- The host presents a request (R41). -/
  | host (req : Word) (opnd : List Byte)
  /-- The peer appends a byte to RX (R40). -/
  | peerSend (b : Byte)
  /-- The peer consumes the next TX byte (R40). -/
  | peerTake
  /-- The radio's actual mode becomes `m` (R36). -/
  | peerMode (m : RadioMode)
  /-- Reset (R230). -/
  | reset
deriving DecidableEq, Repr

/-- Where the spec gives the agent whose turn it is no step. None is raised by an operation; all are raised by
`step` alone, and all are safe: the model stops where the spec has no step (log 3). -/
inductive Fault where
  /-- The block's turn, PHASE = Idle and no request presented: "no step (idle)" (R38). Safe. -/
  | noRequest
  /-- The block's turn in a line read, RX empty and no timeout taken: "no step (held ...)" (R38); with nobody else
  to move this is the hang of R207 and R241. Safe. -/
  | lineHeld
  /-- The block's turn, PHASE = Halted: "no step, ever" (R38, R203). Safe. -/
  | halted
  /-- The host's turn while READY = 0 or REQ_VALID = 1: the host "has no move" (R41). Safe. -/
  | hostHasNoMove
  /-- The peer's turn to consume a TX byte while it has consumed them all (R40). Safe. -/
  | noTxByte
deriving DecidableEq, Repr

/-- Refusals of an instruction. -/
inductive Refusal where
  /-- Raised by `exec`'s arm of an instruction that has no meaning yet. No arm does. Safe. -/
  | notModelled (mnemonic : String)
deriving DecidableEq, Repr

/-- All state of the block (R20), the environment's streams and the radio's actual mode (R36, R40), the parameters
(R9), and the turns to come (log 2). -/
structure State where
  /-- `MODE` (R21). -/
  mode : RadioMode
  /-- `MOD`, the modifier flag accumulator (R22). -/
  mod : Byte
  /-- `KEYS[0..5]` (R23). -/
  keys : KeyFile
  /-- `BTN`, the mouse button flags (R25). -/
  btn : Byte
  /-- `ASCII_MAP[0..127]`, read only (R26). -/
  asciiMap : Vector AsciiEntry 128
  /-- `RESP`, the response-line buffer (R28). -/
  resp : List Byte
  /-- `PHASE` (R29). -/
  phase : Phase
  /-- `FAULT`, three sticky bits (R31). -/
  fault : BitVec 3
  /-- `REQ` (R32). -/
  req : Word
  /-- `OPND` (R32), as the host presents it; the block refuses one longer than `OPERAND_CAP` when it accepts the
  request (log 22). -/
  opnd : List Byte
  /-- `REQ_VALID` (R32). -/
  reqValid : Bool
  /-- `RES_STATUS` (R33). -/
  resStatus : Byte
  /-- `RES_FLAG` (R33). -/
  resFlag : Bool
  /-- `RES_LINE` (R33). -/
  resLine : List Byte
  /-- The TX stream, oldest byte first, append-only (R40). -/
  tx : List Byte
  /-- How many bytes of TX the peer has consumed (R40; log 11). -/
  txTaken : Nat
  /-- The unread RX stream, oldest byte first (R35, R40). -/
  rx : List Byte
  /-- The radio's actual mode, environment state separate from `MODE` (R36). -/
  radioMode : RadioMode
  /-- The parameters of R9, which no step changes (log 4). -/
  params : Params
  /-- The turns to come; empty means that only the block moves (log 2). -/
  turns : List Turn
deriving DecidableEq, Repr

/-- The machine right after the power-on reset (R39, R230). `REQ` and `OPND` (log 7), RX and the radio's actual
mode (log 8), `txTaken` (log 11), the parameters (log 4, 5) and `turns` (log 2) are the model's choices (DESIGN
CHOICE; unsafe for a claim about this one state); every other value is R39's. -/
def State.reset : State where
  mode := .data
  mod := 0x00#8
  keys := ⟨0x00#8, 0x00#8, 0x00#8, 0x00#8, 0x00#8, 0x00#8⟩
  btn := 0x00#8
  asciiMap := defaultAsciiMap
  resp := []
  phase := .idle
  fault := 0b000#3
  req := 0#32
  opnd := []
  reqValid := false
  resStatus := 0x00#8
  resFlag := false
  resLine := []
  tx := []
  txTaken := 0
  rx := []
  radioMode := .data
  params := Params.default
  turns := []

end Sys2Proof.Machine
end

