-- ==== Sys2Proof/Machine/Flags.lean ====
section
/-! DEFINITION. The status codes (R200), the fault bits (R31), the boolean of MS_IS_PRESSED (R135), the mode
contract (R204), and what the host reads of the latches (R33, R41). -/

namespace Sys2Proof.Machine

/-- The outcomes an operation reports (R200). -/
inductive Status where
  | ok
  | unmappable
  | reportFull
  | cmdEntryFailed
  | noTerminator
deriving DecidableEq, Repr

/-- The code written to `RES_STATUS` (R200). -/
def Status.code : Status → Byte
  | .ok => 0x00#8
  | .unmappable => 0x01#8
  | .reportFull => 0x02#8
  | .cmdEntryFailed => 0x03#8
  | .noTerminator => 0x04#8

/-- The fault kinds (R31). -/
inductive FaultKind where
  | modeViolation
  | respOverflow
  | illegalRequest
deriving DecidableEq, Repr

/-- The bit of `FAULT` a kind sets (R31). -/
def FaultKind.bit : FaultKind → BitVec 3
  | .modeViolation => 0b001#3
  | .respOverflow => 0b010#3
  | .illegalRequest => 0b100#3

/-- `MODE` as the 1-bit register it is: 0 = Data, 1 = Command (R21). -/
def RadioMode.bit : RadioMode → BitVec 1
  | .data => 0#1
  | .command => 1#1

/-- `READY` is 1 while `PHASE = Idle` (R33). -/
def State.ready (s : State) : Bool := s.phase == .idle

/-- What the host reads of the result latch while `READY = 1` (R33, R41). -/
def State.hostResult (s : State) : Option (Byte × Bool × List Byte) :=
  if s.ready then some (s.resStatus, s.resFlag, s.resLine) else none

/-- "true iff all bits in mask are currently set" (R135). -/
def allSet (mask btn : Byte) : Bool := btn &&& mask == mask

/-- `fault <Kind>` ORs the bit into `FAULT` and ends nothing (R14, R202). -/
def recordFault (kind : FaultKind) (s : State) : State := { s with fault := s.fault ||| kind.bit }

/-- The mode contract: `MODE_VIOLATION` is recorded when `MODE` is not the mode the call is for (R204). -/
def requireMode (m : RadioMode) (s : State) : State :=
  if s.mode = m then s else recordFault .modeViolation s

end Sys2Proof.Machine
end

