-- ==== Sys2Proof/Machine/Operands.lean ====
section
/-! DEFINITION. What the operands mean: the classification of a key code (R100), the modifier bit of a code (R9),
the ROM entry of an ASCII code (R13, R26), and the signed meaning of a motion byte (R75). A mask, a flags byte, a
report id and an operand sequence are used as they stand (R74, R76). -/

namespace Sys2Proof.Machine

/-- What `Translate(code)` returns (R100). -/
inductive KeyClass where
  | modifier (bit : Byte)
  | unmapped
  | ascii (usage : Byte) (shift : Bool)
  | nonPrint (usage : Byte)
deriving DecidableEq, Repr

/-- `MOD_BIT(c) = 1 << (c - MOD_BASE)` (R9; PRESUMED by the spec itself, log 6; unsafe). -/
def modBit (code : Byte) : Byte := 1#8 <<< (code - Config.modBase).toNat

/-- `MemRead(ROM, a)`: entry `a` of `ASCII_MAP` (R13, R26). -/
def romRead (asciiMap : Vector AsciiEntry 128) (a : BitVec 7) : AsciiEntry := asciiMap[a.toNat]'a.isLt

/-- `code[6:0]`, the index of the ASCII path (R100). -/
def asciiIndex (code : Byte) : BitVec 7 := code.extractLsb' 0 7

/-- `Translate(code)` (R100), in its order of test. -/
def translate (asciiMap : Vector AsciiEntry 128) (code : Byte) : KeyClass :=
  if Config.npBase.toNat ≤ code.toNat then .nonPrint (code - Config.npBase)
  else if Config.modBase.toNat ≤ code.toNat then .modifier (modBit code)
  else if (romRead asciiMap (asciiIndex code)).usage = 0#8 then .unmapped
  else .ascii (romRead asciiMap (asciiIndex code)).usage (romRead asciiMap (asciiIndex code)).shift

/-- `sext_8`, the signed meaning of a motion byte, -128 to 127 (R75). The block itself copies the byte. -/
def motionValue (b : Byte) : Int := b.toInt

end Sys2Proof.Machine
end

