-- ==== Sys2Proof/Machine/Ops.lean ====
section
/-! DEFINITION. The named operations that the meanings share: the byte ports (R13), the framing and the report path
(R83, R151, R180), the key-slot file (R23, R102), how an operation ends (`complete`, `raise`, `halt`: R14), and the
line read (R152). The block has no trap entry and no trap return (R209, R210): `raise` and `complete` stand in
their place. -/

namespace Sys2Proof.Machine

/-! ## Ports (R13, R40, R56) -/

/-- `Tx(s)`: the bytes are appended to the TX stream in order (R13); no append ever stalls (R63, log 15). -/
def sendBytes (bytes : List Byte) (s : State) : State := { s with tx := s.tx ++ bytes }

/-- `RxAvail()` (R13). -/
def rxAvail (s : State) : Bool := !s.rx.isEmpty

/-- `MemRead(RX, 1)`: the oldest unread byte and the state without it; `none` where `RxAvail()` is false (R13). -/
def rxRead (s : State) : Option (Byte × State) :=
  match s.rx with
  | [] => none
  | b :: rest => some (b, { s with rx := rest })

/-! ## Framing and report path (R83, R151, R180) -/

/-- The swap of report ids 1 and 2 on the first payload byte (R83, R160). -/
def swapId (b : Byte) : Byte :=
  if b = 1#8 then 2#8 else if b = 2#8 then 1#8 else b

/-- The payload as it goes out: only byte 0 is swapped (R83). -/
def swapFirst : List Byte → List Byte
  | [] => []
  | b :: rest => swapId b :: rest

/-- `Frame(p)`: start byte, length truncated to 8 bits, payload (R83). -/
def frame (p : List Byte) : List Byte :=
  Config.frameStart :: BitVec.ofNat 8 p.length :: swapFirst p

/-- `SendFramed(p)`: the mode contract for Data, then the frame, sent in either mode (R151). -/
def sendFramed (p : List Byte) (s : State) : State := sendBytes (frame p) (requireMode .data s)

/-- `FacadeSend(id, d)` prepends the report id (R180). -/
def facadeSend (id : Byte) (d : List Byte) (s : State) : State := sendFramed (id :: d) s

/-! ## Key-slot file (R23, R102) -/

/-- `KEYS[i]` (R12). -/
def KeyFile.get (k : KeyFile) (i : Fin 6) : Byte :=
  match i with
  | 0 => k.k0
  | 1 => k.k1
  | 2 => k.k2
  | 3 => k.k3
  | 4 => k.k4
  | 5 => k.k5

/-- `KEYS[i] <- v` (R12). -/
def KeyFile.set (k : KeyFile) (i : Fin 6) (v : Byte) : KeyFile :=
  match i with
  | 0 => { k with k0 := v }
  | 1 => { k with k1 := v }
  | 2 => { k with k2 := v }
  | 3 => { k with k3 := v }
  | 4 => { k with k4 := v }
  | 5 => { k with k5 := v }

/-- The six slots in index order, as a keyboard report carries them (R23). -/
def KeyFile.toList (k : KeyFile) : List Byte := [k.k0, k.k1, k.k2, k.k3, k.k4, k.k5]

/-- All slots empty (R105). -/
def KeyFile.empty : KeyFile := ⟨0#8, 0#8, 0#8, 0#8, 0#8, 0#8⟩

/-- One slot after the release of usage `u` (R104). -/
def clearSlot (u slot : Byte) : Byte := if slot = u then 0#8 else slot

/-- Every slot that matches `u` is zeroed, the others stay where they are (R104). -/
def KeyFile.clear (u : Byte) (k : KeyFile) : KeyFile :=
  ⟨clearSlot u k.k0, clearSlot u k.k1, clearSlot u k.k2, clearSlot u k.k3, clearSlot u k.k4, clearSlot u k.k5⟩

/-- The least index of an empty slot, if there is one (R102). -/
def KeyFile.firstEmpty? (k : KeyFile) : Option (Fin 6) :=
  if k.k0 = 0#8 then some 0
  else if k.k1 = 0#8 then some 1
  else if k.k2 = 0#8 then some 2
  else if k.k3 = 0#8 then some 3
  else if k.k4 = 0#8 then some 4
  else if k.k5 = 0#8 then some 5
  else none

/-- `SlotPlace(u, K)`: the presence test comes before the emptiness test; `none` is `Full` (R102). -/
def slotPlace (u : Byte) (k : KeyFile) : Option KeyFile :=
  if u ∈ k.toList then some k
  else (k.firstEmpty?).map (fun j => k.set j u)

/-! ## Reports (R16, R101, R130) -/

/-- `KbReport()` (R16, R84). -/
def kbReport (s : State) : List Byte := s.mod :: 0x00#8 :: s.keys.toList

/-- `KbSend()` (R101). -/
def kbSend (s : State) : State := facadeSend Config.keyboardId (kbReport s) s

/-- `MsReport(dx, dy, dw)` (R16, R85). -/
def msReport (dx dy dw : Byte) (s : State) : List Byte := [s.btn, dx, dy, dw]

/-- `MsSend(dx, dy, dw)` (R130). -/
def msSend (dx dy dw : Byte) (s : State) : State := facadeSend Config.mouseId (msReport dx dy dw s) s

/-! ## How an operation ends (R14, R33, R203) -/

/-- `complete(status, flag, line)`: the result latch is written and the block is Idle (R14, R33). -/
def complete (status : Status) (flag : Bool) (line : List Byte) (s : State) : State :=
  { s with resStatus := status.code, resFlag := flag, resLine := line, phase := .idle }

/-- `raise <Error>()`: the operation ends with the error's status and flag 0 (R14, R34), the block is Idle (R201),
and nothing else changes, `RES_LINE` included (DEDUCED from R14, log 9; unsafe). -/
def raise (status : Status) (s : State) : State :=
  { s with resStatus := status.code, resFlag := false, phase := .idle }

/-- `halt` (R14, R203). -/
def halt (s : State) : State := { s with phase := .halted }

/-! ## Line read (R152, R154, R156, R205, R207) -/

/-- The start of a line read: `RESP <- []; PHASE <- ReadLine(k)` (R152). -/
def startLine (k : Exchange) (s : State) : State := { s with resp := [], phase := .readLine k }

/-- `RESP <- []`: the buffer is discarded after each exchange (R28). -/
def discardResp (s : State) : State := { s with resp := [] }

/-- `RESP <- RESP ++ [b]` (R38). -/
def appendResp (b : Byte) (s : State) : State := { s with resp := s.resp ++ [b] }

/-- `FinishLine(Enter)`: exactly `CMD` enters Command mode, anything else fails and leaves `MODE` (R154). What
the first step sent and recorded stays on a failure, against the words of R209 (DEDUCED, log 26; unsafe). -/
def finishEnter (s : State) : State :=
  if s.resp = Config.cmdOk then complete .ok true [] { discardResp s with mode := .command }
  else complete .cmdEntryFailed false [] (discardResp s)

/-- `FinishLine(Cmd)`: the line is the result (R156). -/
def finishCmd (s : State) : State := complete .ok true s.resp (discardResp s)

/-- `FinishLine(k)` (R38). -/
def finishLine (k : Exchange) (s : State) : State :=
  match k with
  | .enter => finishEnter s
  | .cmd => finishCmd s

/-- What one RX byte does to a line read, the byte being consumed already: a CR ends the line whatever its length,
another byte overflows a full buffer and halts, or is appended (R38, R205, R208). -/
def takeLineByte (k : Exchange) (b : Byte) (s : State) : State :=
  if b = Config.cr then finishLine k s
  else if s.resp.length = s.params.respCap then halt (recordFault .respOverflow s)
  else appendResp b s

/-- A timeout ends a line read: the bytes consumed so far are lost and `MODE` is unchanged (R207). What the
first step sent and recorded stays, against the words of R209 (DEDUCED, log 26; unsafe). -/
def timeoutLine (s : State) : State := complete .noTerminator false [] (discardResp s)

/-! ## Reset (R230 to R233) -/

/-- Reset sets every register of the block to its reset value and leaves `ASCII_MAP`, the parameters, the two
streams and the radio's actual mode (R230, R232, R233). `REQ` and `OPND` take the values `State.reset` has
(DESIGN CHOICE, log 7; unsafe). -/
def applyReset (s : State) : State :=
  { State.reset with
    asciiMap := s.asciiMap, params := s.params, tx := s.tx, txTaken := s.txTaken, rx := s.rx,
    radioMode := s.radioMode, turns := s.turns }

end Sys2Proof.Machine
end

