-- ==== Sys2Proof/Machine/Facade.lean ====
section
/-! DEFINITION. The facade's operations (43_facade.md): HID_SEND_REPORT and the three enumeration stubs, which are
no-ops that return success. -/

namespace Sys2Proof.Machine

/-- HID_SEND_REPORT (R181). -/
def execHidSendReport (id : Byte) (data : List Byte) (s : State) : Host.Outcome State Fault Refusal :=
  .next (complete .ok true [] (facadeSend id data s))

/-- HID_GET_INTERFACE (R182). -/
def execHidGetInterface (s : State) : Host.Outcome State Fault Refusal := .next (complete .ok true [] s)

/-- HID_GET_DESCRIPTOR (R183). -/
def execHidGetDescriptor (s : State) : Host.Outcome State Fault Refusal := .next (complete .ok true [] s)

/-- HID_SETUP (R184). -/
def execHidSetup (s : State) : Host.Outcome State Fault Refusal := .next (complete .ok true [] s)

end Sys2Proof.Machine
end

