-- ==== Sys2Proof/Machine/Keyboard.lean ====
section
/-! DEFINITION. The keyboard operations (40_keyboard.md): KB_PRESS, KB_RELEASE, KB_RELEASE_ALL, KB_WRITE. -/

namespace Sys2Proof.Machine

/-- The commit of KB_PRESS (R103): the new `MOD` and `KEYS`, or the error it raises with neither changed. The
Unmappable test comes before any shift or slot action, the presence test before the full test (R208). -/
def pressKeys (code : Byte) (s : State) : Except Status (Byte × KeyFile) :=
  match translate s.asciiMap code with
  | .modifier bit => .ok (s.mod ||| bit, s.keys)
  | .unmapped => .error .unmappable
  | .ascii u shift =>
    match slotPlace u s.keys with
    | none => .error .reportFull
    | some k => .ok (s.mod ||| (if shift then s.params.lshiftMask else 0#8), k)
  | .nonPrint u =>
    match slotPlace u s.keys with
    | none => .error .reportFull
    | some k => .ok (s.mod, k)

/-- The press part that succeeded: one commit, then one report (R103). -/
def commitPress (m : Byte) (k : KeyFile) (s : State) : State := kbSend { s with mod := m, keys := k }

/-- The commit of KB_RELEASE (R104): the new `MOD` and `KEYS`. -/
def releaseKeys (code : Byte) (s : State) : Byte × KeyFile :=
  match translate s.asciiMap code with
  | .modifier bit => (s.mod &&& ~~~bit, s.keys)
  | .unmapped => (s.mod, s.keys)
  | .ascii u shift => (if shift then s.mod &&& ~~~s.params.lshiftMask else s.mod, s.keys.clear u)
  | .nonPrint u => (s.mod, s.keys.clear u)

/-- The KB_RELEASE pseudocode without its `complete`: the commit, then one report in every case (R104). -/
def releasePart (code : Byte) (s : State) : State :=
  kbSend { s with mod := (releaseKeys code s).1, keys := (releaseKeys code s).2 }

/-- KB_PRESS (R103). -/
def execKbPress (code : Byte) (s : State) : Host.Outcome State Fault Refusal :=
  match pressKeys code s with
  | .error e => .next (raise e s)
  | .ok (m, k) => .next (complete .ok true [] (commitPress m k s))

/-- KB_RELEASE (R104): always succeeds and always transmits. -/
def execKbRelease (code : Byte) (s : State) : Host.Outcome State Fault Refusal :=
  .next (complete .ok true [] (releasePart code s))

/-- KB_RELEASE_ALL (R105). -/
def execKbReleaseAll (s : State) : Host.Outcome State Fault Refusal :=
  .next (complete .ok true [] (kbSend { s with mod := 0x00#8, keys := KeyFile.empty }))

/-- KB_WRITE (R106): the press part with its outcome recorded, then the release part in every case, then the
press's outcome. -/
def execKbWrite (code : Byte) (s : State) : Host.Outcome State Fault Refusal :=
  match pressKeys code s with
  | .error e => .next (complete e false [] (releasePart code s))
  | .ok (m, k) => .next (complete .ok true [] (releasePart code (commitPress m k s)))

end Sys2Proof.Machine
end

