-- ==== Sys2Proof/Machine/Mouse.lean ====
section
/-! DEFINITION. The mouse operations (41_mouse.md): MS_MOVE, MS_CLICK, MS_PRESS, MS_RELEASE, MS_IS_PRESSED. -/

namespace Sys2Proof.Machine

/-- `BTN <- n` (R25). -/
def setButtons (n : Byte) (s : State) : State := { s with btn := n }

/-- The report that MS_CLICK, MS_PRESS and MS_RELEASE send after a change of `BTN` (R132 to R134). -/
def sendButtons (n : Byte) (s : State) : State := msSend 0x00#8 0x00#8 0x00#8 (setButtons n s)

/-- `BTN` and its report are touched only if the button set changes (R133, R134). -/
def updateButtons (n : Byte) (s : State) : State := if n = s.btn then s else sendButtons n s

/-- MS_MOVE (R131): transmits unconditionally. -/
def execMsMove (dx dy dw : Byte) (s : State) : Host.Outcome State Fault Refusal :=
  .next (complete .ok true [] (msSend dx dy dw s))

/-- MS_CLICK (R132): set, report, clear, report. -/
def execMsClick (mask : Byte) (s : State) : Host.Outcome State Fault Refusal :=
  .next (complete .ok true []
    (sendButtons ((s.btn ||| mask) &&& ~~~mask) (sendButtons (s.btn ||| mask) s)))

/-- MS_PRESS (R133). -/
def execMsPress (mask : Byte) (s : State) : Host.Outcome State Fault Refusal :=
  .next (complete .ok true [] (updateButtons (s.btn ||| mask) s))

/-- MS_RELEASE (R134). -/
def execMsRelease (mask : Byte) (s : State) : Host.Outcome State Fault Refusal :=
  .next (complete .ok true [] (updateButtons (s.btn &&& ~~~mask) s))

/-- MS_IS_PRESSED (R135): writes the result latch and nothing else. -/
def execMsIsPressed (mask : Byte) (s : State) : Host.Outcome State Fault Refusal :=
  .next (complete .ok (allSet mask s.btn) [] s)

end Sys2Proof.Machine
end

