-- ==== Sys2Proof/Machine/RadioLink.lean ====
section
/-! DEFINITION. The radio-link operations (42_radiolink.md): RL_ENTER_CMD, RL_SEND_CMD, RL_EXIT_CMD,
RL_SEND_REPORT, RL_SEND_CONTROL. The line reads that RL_ENTER_CMD and RL_SEND_CMD start go on, one RX byte a
step, in Machine/Sequencer.lean, and end in `finishEnter` and `finishCmd` (Machine/Ops.lean). -/

namespace Sys2Proof.Machine

/-- RL_ENTER_CMD, first step (R153). Its bytes are sent before a line error can come, against the words of R209
(DEDUCED, log 26; unsafe). -/
def execRlEnterCmd (s : State) : Host.Outcome State Fault Refusal :=
  .next (startLine .enter (sendBytes Config.escapeSeq (sendBytes Config.entryPrefix (requireMode .data s))))

/-- RL_SEND_CMD, first step: the text goes out verbatim, no CR is appended (R155). It is sent before a timeout error
can come, against the words of R209 (DEDUCED, log 26; unsafe). -/
def execRlSendCmd (text : List Byte) (s : State) : Host.Outcome State Fault Refusal :=
  .next (startLine .cmd (sendBytes text (requireMode .command s)))

/-- RL_EXIT_CMD: `MODE` becomes Data unconditionally and no response is read (R157). -/
def execRlExitCmd (s : State) : Host.Outcome State Fault Refusal :=
  .next (complete .ok true [] { sendBytes Config.exitSeq (requireMode .command s) with mode := .data })

/-- RL_SEND_REPORT (R158). -/
def execRlSendReport (bytes : List Byte) (s : State) : Host.Outcome State Fault Refusal :=
  .next (complete .ok true [] (sendFramed bytes s))

/-- RL_SEND_CONTROL: raw bytes, no framing, no swap, no mode check; `flags` has no effect (R159). -/
def execRlSendControl (_flags : Byte) (bytes : List Byte) (s : State) : Host.Outcome State Fault Refusal :=
  .next (complete .ok true [] (sendBytes bytes s))

end Sys2Proof.Machine
end

