-- ==== Sys2Proof/Machine/Dispatch.lean ====
section
/-! DEFINITION. `Execute(op)` (R38): one arm per operation of R77. -/

namespace Sys2Proof.Machine

def exec (i : Instr) (s : State) : Host.Outcome State Fault Refusal :=
  match i with
  | .kbPress code => Sys2Proof.Machine.execKbPress code s
  | .kbRelease code => Sys2Proof.Machine.execKbRelease code s
  | .kbReleaseAll => Sys2Proof.Machine.execKbReleaseAll s
  | .kbWrite code => Sys2Proof.Machine.execKbWrite code s
  | .msMove dx dy dw => Sys2Proof.Machine.execMsMove dx dy dw s
  | .msClick mask => Sys2Proof.Machine.execMsClick mask s
  | .msPress mask => Sys2Proof.Machine.execMsPress mask s
  | .msRelease mask => Sys2Proof.Machine.execMsRelease mask s
  | .msIsPressed mask => Sys2Proof.Machine.execMsIsPressed mask s
  | .rlEnterCmd => Sys2Proof.Machine.execRlEnterCmd s
  | .rlSendCmd text => Sys2Proof.Machine.execRlSendCmd text s
  | .rlExitCmd => Sys2Proof.Machine.execRlExitCmd s
  | .rlSendReport bytes => Sys2Proof.Machine.execRlSendReport bytes s
  | .rlSendControl flags bytes => Sys2Proof.Machine.execRlSendControl flags bytes s
  | .hidSendReport id data => Sys2Proof.Machine.execHidSendReport id data s
  | .hidGetInterface => Sys2Proof.Machine.execHidGetInterface s
  | .hidGetDescriptor => Sys2Proof.Machine.execHidGetDescriptor s
  | .hidSetup => Sys2Proof.Machine.execHidSetup s

end Sys2Proof.Machine
end

