-- ==== Sys2Proof/Machine/Environment.lean ====
section
/-! DEFINITION. The moves of the host and of the peer (R40, R41), each a turn of `State.turns`. -/

namespace Sys2Proof.Machine

/-- The host presents a request: it may when `READY = 1` and `REQ_VALID = 0`, and has no move otherwise (R41,
R246; log 23). A sequence longer than `OPERAND_CAP` can be presented, and is refused by the block's next step (U8;
log 22). -/
def hostPresent (req : Word) (opnd : List Byte) (s : State) : Host.Outcome State Fault Refusal :=
  if s.ready && !s.reqValid then .next { s with req := req, opnd := opnd, reqValid := true }
  else .fault .hostHasNoMove

/-- The peer appends a byte to RX, at any time (R40). -/
def peerSend (b : Byte) (s : State) : State := { s with rx := s.rx ++ [b] }

/-- The peer consumes the next TX byte, in order; the log itself is append-only (R40, log 11). -/
def peerTake (s : State) : Host.Outcome State Fault Refusal :=
  if s.txTaken < s.tx.length then .next { s with txTaken := s.txTaken + 1 } else .fault .noTxByte

/-- The radio's actual mode changes by the peer's doing alone (R36, log 12). -/
def peerMode (m : RadioMode) (s : State) : State := { s with radioMode := m }

end Sys2Proof.Machine
end

