-- ==== Sys2Proof/Machine/Sequencer.lean ====
section
/-! DEFINITION. The block's step (R38) and the turns of the agents (R10). -/

namespace Sys2Proof.Machine

/-- What the block does with the latched request, `REQ_VALID` being cleared already: it executes the operation, or
records ILLEGAL_REQUEST and halts (R38, R206). -/
def acceptRequest (s : State) : Host.Outcome State Fault Refusal :=
  match decode s.params.operandCap s.req s.opnd with
  | .error _ => .next (halt (recordFault .illegalRequest s))
  | .ok i => exec i s

/-- The block's step in `ReadLine(k)`: an RX byte if there is one; else a timeout if it is enabled and offered; else
no step (R38, R207, R208). -/
def lineStep (offered : Bool) (k : Exchange) (s : State) : Host.Outcome State Fault Refusal :=
  match rxRead s with
  | some (b, s') => .next (takeLineByte k b s')
  | none => if offered && s.params.timeoutEnabled then .next (timeoutLine s) else .fault .lineHeld

/-- The block's step (R38). `offered` says that the environment offers a timeout event at this step, which only a
line read looks at (DEDUCED, log 25; safe). Where the spec has no step the answer is a named stop (log 3). -/
def blockStep (offered : Bool) (s : State) : Host.Outcome State Fault Refusal :=
  match s.phase with
  | .idle => if s.reqValid then acceptRequest { s with reqValid := false } else .fault .noRequest
  | .readLine k => lineStep offered k s
  | .halted => .fault .halted

/-- One turn (R10). -/
def takeTurn (t : Turn) (s : State) : Host.Outcome State Fault Refusal :=
  match t with
  | .block => blockStep false s
  | .timeout => blockStep true s
  | .host req opnd => hostPresent req opnd s
  | .peerSend b => .next (peerSend b s)
  | .peerTake => peerTake s
  | .peerMode m => .next (peerMode m s)
  | .reset => .next (applyReset s)

/-- The next turn of the list; when the list is empty, the block's (log 2). -/
def nextTurn (s : State) : Host.Outcome State Fault Refusal :=
  match s.turns with
  | [] => blockStep false s
  | t :: rest => takeTurn t { s with turns := rest }

/-- The request latch as the host leaves it when it presents request `r` to an Idle block, and the turn the block's
(R32, R41). -/
def presentRequest (r : Request) (s : State) : State :=
  { s with req := r.word, opnd := r.opnd, reqValid := true, phase := .idle, turns := .block :: s.turns }

/-- The request of an instruction as spec/opcode_table.json numbers its bits (log 17). -/
def tableRequest (nbits w : Nat) : Request :=
  (requestOfBus (tableBytes nbits w)).getD ⟨0#32, []⟩

end Sys2Proof.Machine
end

