-- ==== Sys2Proof/Machine/Step.lean ====
section
/-! DEFINITION. The step of the whole machine, and the state whose next step runs a given instruction. -/

namespace Sys2Proof.Machine

/-- One turn of one agent (R10, R38). -/
def step (s : State) : Host.Outcome State Fault Refusal := nextTurn s

/-- `s` with the instruction whose bits are `w`, as spec/opcode_table.json numbers them, presented in the request
latch, and the next turn the block's, so that the very next step accepts and executes it (log 1, 17). -/
def State.withFetchWord (s : State) (nbits w : Nat) : State := presentRequest (tableRequest nbits w) s

end Sys2Proof.Machine
end

