-- ==== Sys2Proof/Machine/Assembly.lean ====
section
/-! DEFINITION. The request assembly syntax (R81) and the pseudo-instructions (R82), which are the host's: one line
of text gives the operations the host is to request, in order. Text is a list of ASCII codes. What R81 leaves open
(white space, the spelling and range of a number, where a character literal may stand, other escapes than `\r`, and
whether a format S sequence may be a string literal) is fixed here: DESIGN CHOICE, log 14; safe, because no step of
the machine reads text. -/

namespace Sys2Proof.Machine

/-- The mnemonic of an operation (R77). -/
def mnemonicOf : Op → String
  | .kbPress => "KB_PRESS"
  | .kbRelease => "KB_RELEASE"
  | .kbReleaseAll => "KB_RELEASE_ALL"
  | .kbWrite => "KB_WRITE"
  | .msMove => "MS_MOVE"
  | .msClick => "MS_CLICK"
  | .msPress => "MS_PRESS"
  | .msRelease => "MS_RELEASE"
  | .msIsPressed => "MS_IS_PRESSED"
  | .rlEnterCmd => "RL_ENTER_CMD"
  | .rlSendCmd => "RL_SEND_CMD"
  | .rlExitCmd => "RL_EXIT_CMD"
  | .rlSendReport => "RL_SEND_REPORT"
  | .rlSendControl => "RL_SEND_CONTROL"
  | .hidSendReport => "HID_SEND_REPORT"
  | .hidGetInterface => "HID_GET_INTERFACE"
  | .hidGetDescriptor => "HID_GET_DESCRIPTOR"
  | .hidSetup => "HID_SETUP"

/-- The character codes of a text. -/
def codesOf (text : String) : List Nat := text.toList.map Char.toNat

/-- The operation a name spells (R77). -/
def opOfName? (name : List Nat) : Option Op :=
  Op.all.find? (fun o => codesOf (mnemonicOf o) == name)

/-- The parts of a line. -/
inductive Token where
  | name (codes : List Nat)
  | number (n : Int)
  | text (bytes : List Byte)
  | comma
  | openList
  | closeList
deriving DecidableEq, Repr

/-- A decimal digit. -/
def isDigit (c : Nat) : Bool := 48 ≤ c && c ≤ 57

/-- A letter, a digit or an underscore. -/
def isNameCode (c : Nat) : Bool := isDigit c || (65 ≤ c && c ≤ 90) || (97 ≤ c && c ≤ 122) || c == 95

/-- The value of a digit in base 16 or less. -/
def digitValue? (base c : Nat) : Option Nat :=
  let v := if isDigit c then c - 48 else if 65 ≤ c && c ≤ 70 then c - 55 else if 97 ≤ c && c ≤ 102 then c - 87 else 16
  if v < base then some v else none

/-- The value of a row of digits, most significant first, on top of `acc`. -/
def digitsValue? (base acc : Nat) : List Nat → Option Nat
  | [] => some acc
  | c :: rest => (digitValue? base c).bind (fun v => digitsValue? base (acc * base + v) rest)

/-- A decimal number, or a hexadecimal one after `0x`. -/
def numberOf? : List Nat → Option Nat
  | 48 :: 120 :: d :: rest => digitsValue? 16 0 (d :: rest)
  | ds => digitsValue? 10 0 ds

/-- The inside of a string literal up to its closing quote: ASCII codes as they are, `\r` as 0x0D (R81). -/
def lexText? : List Nat → Option (List Byte × List Nat)
  | [] => none
  | 34 :: rest => some ([], rest)
  | 92 :: 114 :: rest => (lexText? rest).map (fun p => (0x0D#8 :: p.1, p.2))
  | 92 :: _ => none
  | c :: rest => if c < 128 then (lexText? rest).map (fun p => (BitVec.ofNat 8 c :: p.1, p.2)) else none

/-- A name or a number, from the letters and digits that spell it. -/
def wordToken? (word : List Nat) : Option Token :=
  match word with
  | [] => none
  | c :: _ => if isDigit c then (numberOf? word).map (fun n => .number (Int.ofNat n)) else some (.name word)

/-- The tokens of a line; `fuel` bounds their number. -/
def lex? : Nat → List Nat → Option (List Token)
  | 0, _ => none
  | _ + 1, [] => some []
  | fuel + 1, 32 :: rest => lex? fuel rest
  | fuel + 1, 44 :: rest => (lex? fuel rest).map (List.cons .comma)
  | fuel + 1, 91 :: rest => (lex? fuel rest).map (List.cons .openList)
  | fuel + 1, 93 :: rest => (lex? fuel rest).map (List.cons .closeList)
  | fuel + 1, 39 :: c :: 39 :: rest =>
    if c < 128 then (lex? fuel rest).map (List.cons (.number (Int.ofNat c))) else none
  | fuel + 1, 34 :: rest =>
    (lexText? rest).bind (fun p => (lex? fuel p.2).map (List.cons (.text p.1)))
  | fuel + 1, 45 :: rest =>
    (numberOf? (rest.takeWhile isNameCode)).bind (fun n =>
      if rest.takeWhile isNameCode = [] then none
      else (lex? fuel (rest.dropWhile isNameCode)).map (List.cons (.number (-Int.ofNat n))))
  | fuel + 1, c :: rest =>
    (wordToken? ((c :: rest).takeWhile isNameCode)).bind (fun t =>
      (lex? fuel ((c :: rest).dropWhile isNameCode)).map (List.cons t))

/-- An unsigned byte operand, 0 to 255 (R73, R74, R76). -/
def unsignedByte? (n : Int) : Option Byte :=
  if 0 ≤ n ∧ n ≤ 255 then some (BitVec.ofInt 8 n) else none

/-- A motion operand: a signed decimal or a hexadecimal byte, -128 to 255 (R75, R81). -/
def motionByte? (n : Int) : Option Byte :=
  if -128 ≤ n ∧ n ≤ 255 then some (BitVec.ofInt 8 n) else none

/-- The bytes of a list literal after its opening bracket, up to the end of the line. -/
def listItems? : List Token → Option (List Byte)
  | [.number n, .closeList] => (unsignedByte? n).map (fun b => [b])
  | .number n :: .comma :: rest => (unsignedByte? n).bind (fun b => (listItems? rest).map (List.cons b))
  | _ => none

/-- A sequence operand that ends the line (R81). -/
def sequence? : List Token → Option (List Byte)
  | [.text bytes] => some bytes
  | [.openList, .closeList] => some []
  | .openList :: rest => listItems? rest
  | _ => none

/-- The operation `o` with the operands the tokens give it (R81). Format S takes its sequence as a list or as a string
literal; R81 gives the string form for format S0 alone (DESIGN CHOICE, log 14; safe). -/
def operandsOf? (o : Op) (ts : List Token) : Option Instr :=
  match o.format, ts with
  | .n, [] => some (assembleOperands o (wordN o) [])
  | .k, [.number n] => (unsignedByte? n).map (fun b => assembleOperands o (wordKB o b) [])
  | .b, [.number n] => (unsignedByte? n).map (fun b => assembleOperands o (wordKB o b) [])
  | .m, [.number x, .comma, .number y, .comma, .number w] =>
    (motionByte? x).bind (fun dx => (motionByte? y).bind (fun dy => (motionByte? w).map (fun dw =>
      assembleOperands o (wordM o dx dy dw) [])))
  | .s0, ts => (sequence? ts).map (fun bytes => assembleOperands o (wordS o 0#8 bytes) bytes)
  | .s, .number x :: .comma :: ts =>
    (unsignedByte? x).bind (fun b => (sequence? ts).map (fun bytes => assembleOperands o (wordS o b bytes) bytes))
  | _, _ => none

/-- `KB_TYPE "s"`: one KB_WRITE per byte (R82). -/
def expandKbType (bytes : List Byte) : List Instr := bytes.map Instr.kbWrite

/-- `RL_CMD "t"`: the text with CR appended (R82). -/
def expandRlCmd (bytes : List Byte) : List Instr := [.rlSendCmd (bytes ++ [Config.cr])]

/-- `MS_CLICK_LEFT`: a click of `BUTTON_LEFT` (R82). -/
def expandMsClickLeft (p : Params) : List Instr := [.msClick p.buttonLeft]

/-- The operations a line stands for: one operation, or a pseudo-instruction's expansion (R81, R82). -/
def assembleTokens? (p : Params) : List Token → Option (List Instr)
  | .name w :: ts =>
    if w = codesOf "KB_TYPE" then
      match ts with
      | [.text bytes] => some (expandKbType bytes)
      | _ => none
    else if w = codesOf "RL_CMD" then
      match ts with
      | [.text bytes] => some (expandRlCmd bytes)
      | _ => none
    else if w = codesOf "MS_CLICK_LEFT" then
      match ts with
      | [] => some (expandMsClickLeft p)
      | _ => none
    else (opOfName? w).bind (fun o => (operandsOf? o ts).map (fun i => [i]))
  | _ => none

/-- One line of assembly text, as the requests the host issues for it (R81, R82). -/
def assemble? (p : Params) (line : String) : Option (List Request) :=
  ((lex? ((codesOf line).length + 1) (codesOf line)).bind (assembleTokens? p)).map (List.map encode)

end Sys2Proof.Machine
end

