-- ==== Sys2Proof/Safety.lean ====
section
/-! DEFINITION. What counts as a safe run, in the terms of the spec: a run with `FAULT = 0` (R202), the caller's
mode contract (R204, R240), the launch premise (R234, R235), and the state invariant the rules imply. -/

namespace Sys2Proof

open Machine

/-- A state the spec gives a good meaning to: no fault has been recorded (R31, R202). -/
abbrev SafeState (s : State) : Prop := s.fault = 0#3

/-- `k` steps from `s` all answer a next state, and every state reached is safe. A hang is not safe: it is no step
(R202, R207). -/
def safeRun : Nat → State → Bool
  | 0, s => s.fault == 0#3
  | k + 1, s =>
    s.fault == 0#3 &&
      match step s with
      | .next s' => safeRun k s'
      | .fault _ => false
      | .refused _ => false

/-- The launch premise of R235 with the boot conditions (2) and (4) of R234. R235 lets `MOD`, `KEYS`, `BTN` and
`MODE` each stand at its reset value or be named. DESIGN CHOICE (log 27; safe): `Launch` has `MODE` at its reset value
and leaves `MOD`, `KEYS` and `BTN` unconstrained, so a claim that needs one of them names it. That RX is empty is the
first form of condition (4) (log 8). -/
abbrev Launch (s : State) : Prop :=
  s.phase = .idle ∧ s.fault = 0#3 ∧ s.reqValid = false ∧ s.mode = .data ∧ s.radioMode = .data ∧ s.rx = []

/-- The mode an operation may be issued in, by the contract of R240; `none` means either mode. R240 binds "any
keyboard or mouse operation that transmits" and does not say whether that is the operation's kind or the one call.
DESIGN CHOICE (log 28; safe): the kind. So Data is asked of every KB_PRESS, MS_PRESS and MS_RELEASE, also of a call that
sends nothing, which records no fault in either mode (R204). -/
def requiredMode : Instr → Option RadioMode
  | .kbPress _ => some .data
  | .kbRelease _ => some .data
  | .kbReleaseAll => some .data
  | .kbWrite _ => some .data
  | .msMove _ _ _ => some .data
  | .msClick _ => some .data
  | .msPress _ => some .data
  | .msRelease _ => some .data
  | .msIsPressed _ => none
  | .rlEnterCmd => some .data
  | .rlSendCmd _ => some .command
  | .rlExitCmd => some .command
  | .rlSendReport _ => some .data
  | .rlSendControl _ _ => none
  | .hidSendReport _ _ => some .data
  | .hidGetInterface => none
  | .hidGetDescriptor => none
  | .hidSetup => none

/-- The caller keeps the mode contract when it issues `i` in state `s` (R240), read by the operation's kind: a premise
at least as strict as a contract that binds only the calls that send a frame (DESIGN CHOICE, log 28). -/
abbrev contractKept (i : Instr) (s : State) : Prop := ∀ m, requiredMode i = some m → s.mode = m

/-- "each non-zero slot holds a distinct HID usage code" (R24). -/
abbrev KeysDistinct (k : KeyFile) : Prop := ∀ i j : Fin 6, i ≠ j → k.get i = k.get j → k.get i = 0#8

/-- The relations between the fields of State that the rules imply. -/
structure Inv (s : State) : Prop where
  /-- R24. -/
  keysDistinct : KeysDistinct s.keys
  /-- `RESP` holds 0 to `RESP_CAP` bytes (R20, R28). -/
  respFits : s.resp.length ≤ s.params.respCap
  /-- The terminator is never stored in `RESP` (R28). -/
  respNoCr : Config.cr ∉ s.resp
  /-- Nor in the line handed to the host (R156). -/
  resLineNoCr : Config.cr ∉ s.resLine
  /-- The line handed to the host fitted `RESP` (R28, R156). -/
  resLineFits : s.resLine.length ≤ s.params.respCap
  /-- `RESP` is discarded after each exchange (R28). -/
  idleNoResp : s.phase = .idle → s.resp = []
  /-- `OPND` is at most `OPERAND_CAP` bytes long, but for a sequence that the block has not accepted yet or has
  refused (R32, U8; log 22). -/
  opndFits : s.reqValid = false → s.phase ≠ .halted → s.opnd.length ≤ s.params.operandCap.val
  /-- A request waits only in Idle (R41). -/
  requestIdle : s.reqValid = true → s.phase = .idle
  /-- The block is Halted exactly when a halting fault is recorded (R202, R203). -/
  haltedIff : s.phase = .halted ↔ s.fault.getLsbD 1 = true ∨ s.fault.getLsbD 2 = true
  /-- "Values 0x05..0xFF are never written" (R200). -/
  statusCode : s.resStatus.toNat ≤ 4
  /-- "`RES_FLAG = 0` goes with every error status" (R34). -/
  flagOk : s.resFlag = true → s.resStatus = 0x00#8
  /-- The peer consumes only bytes that were sent (R40). -/
  takenSent : s.txTaken ≤ s.tx.length

end Sys2Proof
end

