-- ==== Sys2Proof/Certificates/Slice0/Obligations.lean ====
section
/-! DEFINITION. The statements for the provers. The helper definitions of the first section restate what the spec's
own text gives (its frames, its tables) in plain terms, without the model's operations, so that a statement that
uses them checks the model against the text. -/

namespace Sys2Proof.Spec

open Machine

/-- A request word by its four bytes, `REQ[31:24]` first, as the tables of R71 and R81 write it. -/
def wordBytes (w : Word) (b3 b2 b1 b0 : Byte) : Prop :=
  w.extractLsb' 24 8 = b3 ∧ w.extractLsb' 16 8 = b2 ∧ w.extractLsb' 8 8 = b1 ∧ w.extractLsb' 0 8 = b0

/-- A format S request: `REQ = {LEN, X, OP}` with `LEN` operand bytes (R71, R76). -/
def sequenceRequest (r : Request) (x op : Byte) (bytes : List Byte) : Prop :=
  r.word.extractLsb' 16 16 = BitVec.ofNat 16 bytes.length ∧ r.word.extractLsb' 8 8 = x ∧
    r.word.extractLsb' 0 8 = op ∧ r.opnd = bytes

/-- The 11 wire bytes of a keyboard report (R84). -/
def keyboardFrame (m : Byte) (k : KeyFile) : List Byte :=
  [0xFD#8, 0x09#8, 0x01#8, m, 0x00#8, k.k0, k.k1, k.k2, k.k3, k.k4, k.k5]

/-- The 7 wire bytes of a mouse report (R85). -/
def mouseFrame (b dx dy dw : Byte) : List Byte := [0xFD#8, 0x05#8, 0x02#8, b, dx, dy, dw]

/-- The wire bytes of a payload (R83). -/
def wireFrame : List Byte → List Byte
  | [] => [0xFD#8, 0x00#8]
  | b :: rest =>
    [0xFD#8, BitVec.ofNat 8 (rest.length + 1), if b = 1#8 then 2#8 else if b = 2#8 then 1#8 else b] ++ rest

/-- `FAULT` after a call that is for Data mode (R204 cases a and c). -/
def dataFault (s : State) : BitVec 3 := if s.mode = .command then s.fault ||| 0b001#3 else s.fault

/-- `FAULT` after a call that is for Command mode (R204 cases b and d). -/
def commandFault (s : State) : BitVec 3 := if s.mode = .data then s.fault ||| 0b001#3 else s.fault

/-- The code is a key of usage `u`, by the non-printing range or by a mapped entry of `ASCII_MAP`; `shift` is the
entry's flag (R100). -/
def keyUsage (m : Vector AsciiEntry 128) (code u : Byte) (shift : Bool) : Prop :=
  (136 ≤ code.toNat ∧ u = code - 136#8 ∧ shift = false) ∨
    ∃ h : code.toNat < 128, (m[code.toNat]'h).usage = u ∧ u ≠ 0#8 ∧ (m[code.toNat]'h).shift = shift

/-- The code is an unmapped ASCII code (R26, R100). -/
def unmapped (m : Vector AsciiEntry 128) (code : Byte) : Prop :=
  ∃ h : code.toNat < 128, (m[code.toNat]'h).usage = 0#8

/-- The modifier bit of a modifier code (R9). -/
def modifierBit (code : Byte) : Byte := 1#8 <<< (code.toNat - 128)

/-- The bits a press of a key adds to `MOD` (R103). -/
def shiftBits (shift : Bool) (s : State) : Byte := if shift then s.params.lshiftMask else 0#8

/-- Slot `j` is the first empty one (R102). -/
def firstEmpty (k : KeyFile) (j : Fin 6) : Prop := k.get j = 0#8 ∧ ∀ i < j, k.get i ≠ 0#8

/-- The operations of the access table's `TX` column that send frames (R37, R204 case a). -/
def sendsFrames : Instr → Bool
  | .kbPress _ | .kbRelease _ | .kbReleaseAll | .kbWrite _ => true
  | .msMove _ _ _ | .msClick _ | .msPress _ | .msRelease _ => true
  | .rlSendReport _ | .hidSendReport _ _ => true
  | .msIsPressed _ | .rlEnterCmd | .rlSendCmd _ | .rlExitCmd | .rlSendControl _ _ => false
  | .hidGetInterface | .hidGetDescriptor | .hidSetup => false

/-- The `w` entries of the columns `MOD` and `KEYS` of the access table (R37). -/
def writesKeys : Instr → Bool
  | .kbPress _ | .kbRelease _ | .kbReleaseAll | .kbWrite _ => true
  | .msMove _ _ _ | .msClick _ | .msPress _ | .msRelease _ | .msIsPressed _ => false
  | .rlEnterCmd | .rlSendCmd _ | .rlExitCmd | .rlSendReport _ | .rlSendControl _ _ => false
  | .hidSendReport _ _ | .hidGetInterface | .hidGetDescriptor | .hidSetup => false

/-- The `w` entries of the column `BTN` of the access table (R37). -/
def writesBtn : Instr → Bool
  | .msClick _ | .msPress _ | .msRelease _ => true
  | .kbPress _ | .kbRelease _ | .kbReleaseAll | .kbWrite _ | .msMove _ _ _ | .msIsPressed _ => false
  | .rlEnterCmd | .rlSendCmd _ | .rlExitCmd | .rlSendReport _ | .rlSendControl _ _ => false
  | .hidSendReport _ _ | .hidGetInterface | .hidGetDescriptor | .hidSetup => false

/-- The next step is the block's, because no turn is listed or because the block's is listed first, and `ts` are the
turns after it (the model's own bookkeeping, log 2). -/
def blockTurn (s : State) (ts : List Turn) : Prop := (s.turns = [] ∧ ts = []) ∨ s.turns = .block :: ts

/-- The turn that the next step takes (the model's own bookkeeping, log 2). -/
def turnOf (s : State) : Turn := s.turns.headD .block

/-- `MODE` after a step, read from the table of R150. The word of RL_EXIT_CMD with an operand sequence longer than
`OPERAND_CAP` is no RL_EXIT_CMD but an illegal request (R32; log 22); with any that fits it is RL_EXIT_CMD (R78; log
10). -/
def modeAfter (s : State) : RadioMode :=
  match turnOf s with
  | .reset => .data
  | .host _ _ | .peerSend _ | .peerTake | .peerMode _ => s.mode
  | .block | .timeout =>
    match s.phase with
    | .readLine .enter =>
      if s.rx.head? = some 0x0D#8 ∧ s.resp = [0x43#8, 0x4D#8, 0x44#8] then .command else s.mode
    | .idle => if s.req = 0x22#32 ∧ s.opnd.length ≤ s.params.operandCap.val then .data else s.mode
    | .readLine .cmd | .halted => s.mode

/-- The state after pressing the codes of a list one after the other (R110). -/
def pressAll : List Byte → State → State
  | [], s => s
  | c :: rest, s =>
    match exec (.kbPress c) s with
    | .next t => pressAll rest t
    | .fault _ => s
    | .refused _ => s

end Sys2Proof.Spec

open Sys2Proof Sys2Proof.Machine Sys2Proof.Spec

/-! ## Encoding (30_encoding.md) -/

/-- Decode and encode agree: every well-formed instruction, with every operand at every value its encoding admits,
is what the decoder reads from its request (R71, R77, R78; the encoding is the spec's own choice D2). -/
def Obligations.DecodeOfEncodeIsTheInstruction : Prop :=
  ∀ (cap : Fin 65536) (i : Instr), i.wellFormed cap = true →
    decode cap (encode i).word (encode i).opnd = .ok i

/-- The other direction: a request that decodes spells a well-formed instruction whose encoding is that request;
`OPND` counts in format S only and fits the operand buffer in every format (R32, R71, R78; that the other formats
ignore an `OPND` that fits, and refuse one that does not, is the model's reading, log 10 and 22). -/
def Obligations.EncodeOfDecodeIsTheRequest : Prop :=
  ∀ (cap : Fin 65536) (req : Word) (opnd : List Byte) (i : Instr), decode cap req opnd = .ok i →
    i.wellFormed cap = true ∧
      encode i = ⟨req, if i.op.format = .s ∨ i.op.format = .s0 then opnd else []⟩ ∧ opnd.length ≤ cap.val

/-- A request is illegal exactly in the four cases R79 lists, the opcodes and their formats written out from R77, or
when `OPND` is longer than `OPERAND_CAP`, in any format (R32, U8; that it is illegal outside format S too is the
model's reading, log 22). That an `OPND` which fits is legal outside format S too: log 10. -/
def Obligations.DecodeRejectsExactlyTheIllegalRequests : Prop :=
  ∀ (cap : Fin 65536) (req : Word) (opnd : List Byte),
    (∃ e, decode cap req opnd = .error e) ↔
      (req.extractLsb' 0 8 ∉ [0x01#8, 0x02#8, 0x03#8, 0x04#8, 0x10#8, 0x11#8, 0x12#8, 0x13#8, 0x14#8, 0x20#8, 0x21#8,
          0x22#8, 0x23#8, 0x24#8, 0x30#8, 0x31#8, 0x32#8, 0x33#8]) ∨
      (req.extractLsb' 0 8 ∈ [0x03#8, 0x20#8, 0x22#8, 0x31#8, 0x32#8, 0x33#8] ∧ req.extractLsb' 8 24 ≠ 0#24) ∨
      (req.extractLsb' 0 8 ∈ [0x01#8, 0x02#8, 0x04#8, 0x11#8, 0x12#8, 0x13#8, 0x14#8] ∧
        req.extractLsb' 16 16 ≠ 0#16) ∨
      (req.extractLsb' 0 8 ∈ [0x21#8, 0x23#8] ∧ req.extractLsb' 8 8 ≠ 0#8) ∨
      (req.extractLsb' 0 8 ∈ [0x21#8, 0x23#8, 0x24#8, 0x30#8] ∧
        ((req.extractLsb' 16 16).toNat ≠ opnd.length ∨ cap.val < (req.extractLsb' 16 16).toNat)) ∨
      cap.val < opnd.length

/-- The example words of R81, written out there, decode to the instructions they stand for. -/
def Obligations.ExampleWordsDecode : Prop :=
  decode 65535 0x00000020#32 [] = .ok .rlEnterCmd ∧
  decode 65535 0x00006101#32 [] = .ok (.kbPress 0x61#8) ∧
  decode 65535 0x00000111#32 [] = .ok (.msClick 0x01#8) ∧
  decode 65535 0x0002FF10#32 [] = .ok (.msMove 0xFF#8 0x02#8 0x00#8) ∧
  decode 65535 0x00020021#32 [0x44#8, 0x0D#8] = .ok (.rlSendCmd [0x44#8, 0x0D#8]) ∧
  decode 65535 0x00080230#32 [0#8, 0#8, 4#8, 0#8, 0#8, 0#8, 0#8, 0#8] =
    .ok (.hidSendReport 0x02#8 [0#8, 0#8, 4#8, 0#8, 0#8, 0#8, 0#8, 0#8])

/-! ## The step (10_state.md R38, R41) -/

/-- A step of an Idle block that has a legal request runs the decoded instruction, with `REQ_VALID` cleared and, if
the block's turn was listed, that turn taken off the list (R38; the list of turns is the model's own, log 2). -/
def Obligations.StepRunsTheDecodedInstruction : Prop :=
  ∀ (s : State) (i : Instr), s.phase = .idle → s.reqValid = true →
    decode s.params.operandCap s.req s.opnd = .ok i →
    (s.turns = [] → step s = exec i { s with reqValid := false }) ∧
    (∀ ts, s.turns = .block :: ts → step s = exec i { s with reqValid := false, turns := ts })

/-- An instruction of the opcode table's numbering that the decoder reads is what the very next step executes once
it is presented (the model's loading convention, log 1 and 17). -/
def Obligations.PresentedTableWordRunsNext : Prop :=
  ∀ (s : State) (nbits w : Nat) (i : Instr), s.params.operandCap = Params.default.operandCap →
    decodeTableWord nbits w = some i →
    step (s.withFetchWord nbits w) =
      exec i { s.withFetchWord nbits w with reqValid := false, turns := s.turns }

/-- An illegal request: ILLEGAL_REQUEST is recorded, the block halts, `REQ_VALID` is cleared, and nothing else
changes; nothing is sent (R38, R206, decision D3; that it is the block's turn: log 2). -/
def Obligations.IllegalRequestHalts : Prop :=
  ∀ (s : State) (e : IllegalRequest) (ts : List Turn), s.phase = .idle → s.reqValid = true →
    decode s.params.operandCap s.req s.opnd = .error e → blockTurn s ts →
    step s = .next { s with turns := ts, reqValid := false, fault := s.fault ||| 0b100#3, phase := .halted }

/-- With only the block to move, there is no step in exactly the three cases of R38 (that the model answers a named
stop there is its own choice, log 3); in every other state the step answers a next state. -/
def Obligations.BlockStopsExactlyWhereNoStep : Prop :=
  ∀ s : State, s.turns = [] →
    (((s.phase = .idle ∧ s.reqValid = false) ∨ (∃ k, s.phase = .readLine k ∧ s.rx = []) ∨ s.phase = .halted) ↔
      ∃ f, step s = .fault f) ∧
    (¬ ((s.phase = .idle ∧ s.reqValid = false) ∨ (∃ k, s.phase = .readLine k ∧ s.rx = []) ∨ s.phase = .halted) ↔
      ∃ t, step s = .next t)

/-- A halted block accepts no request and has no step, and a reset ends the halt (R38, R41, R203, R230, decisions
D3, D9, D20; the named stops are the model's, log 2 and 3). R203 says that the host can still move while the block
is halted: that the host's turn is then a stop is the model's choice, which follows R41 (log 23). That reset can
come in this phase and that an offered timeout is not taken: log 13 and 25. -/
def Obligations.HaltedUntilReset : Prop :=
  ∀ (s : State) (ts : List Turn), s.phase = .halted →
    (s.turns = [] → step s = .fault .halted) ∧
    (s.turns = .block :: ts → step s = .fault .halted) ∧
    (s.turns = .timeout :: ts → step s = .fault .halted) ∧
    (∀ req opnd, s.turns = .host req opnd :: ts → step s = .fault .hostHasNoMove) ∧
    (s.turns = .reset :: ts → ∃ t, step s = .next t ∧ t.phase = .idle ∧ t.fault = 0#3)

/-- Reset sets every register of the block to its reset value and leaves `ASCII_MAP`, the parameters, both streams
and the radio's actual mode (R39, R230, R232, R233, decision D9). The values of `REQ` and `OPND` are not stated: the
spec gives none (log 7). That reset can come in every phase: log 13. -/
def Obligations.ResetSetsEveryRegister : Prop :=
  ∀ (s : State) (ts : List Turn), s.turns = .reset :: ts →
    ∃ t, step s = .next t ∧
      t = { t with
        mode := .data, mod := 0#8, keys := ⟨0#8, 0#8, 0#8, 0#8, 0#8, 0#8⟩, btn := 0#8, resp := [], phase := .idle,
        fault := 0#3, reqValid := false, resStatus := 0#8, resFlag := false, resLine := [],
        asciiMap := s.asciiMap, params := s.params, tx := s.tx, txTaken := s.txTaken, rx := s.rx,
        radioMode := s.radioMode, turns := ts }

/-- The host presents a request exactly while `READY = 1` and `REQ_VALID = 0`, and then writes the latch and nothing
else (R32, R41, decisions D1, D20; the named stop is the model's, log 3). That this holds of a halted block too is
the model's choice, against the words of R203 (log 23), and so is that the latch takes an operand sequence as it is
presented, also one longer than the `OPERAND_CAP` of R32, which the block then refuses at its next step (log 22). The
list of turns is the model's bookkeeping (log 2). -/
def Obligations.HostPresentsOnlyWhenReady : Prop :=
  ∀ (s : State) (req : Word) (opnd : List Byte) (ts : List Turn), s.turns = .host req opnd :: ts →
    (s.ready = true ∧ s.reqValid = false →
      step s = .next { s with req := req, opnd := opnd, reqValid := true, turns := ts }) ∧
    (¬ (s.ready = true ∧ s.reqValid = false) → step s = .fault .hostHasNoMove)

/-- The peer appends any byte to RX in any state, consumes the TX bytes one by one, and sets the radio's actual
mode; none of this touches the block (R36, R40, decision D33). The count of consumed bytes, the turns that change
the radio's mode and the freedom of the peer: log 11, 12 and 24. -/
def Obligations.PeerMovesOnlyTheEnvironment : Prop :=
  ∀ (s : State) (ts : List Turn) (b : Byte) (m : RadioMode),
    (s.turns = .peerSend b :: ts → step s = .next { s with rx := s.rx ++ [b], turns := ts }) ∧
    (s.turns = .peerMode m :: ts → step s = .next { s with radioMode := m, turns := ts }) ∧
    (s.turns = .peerTake :: ts → s.txTaken < s.tx.length →
      step s = .next { s with txTaken := s.txTaken + 1, turns := ts })

/-! ## Keyboard (40_keyboard.md) -/

/-- KB_PRESS of a modifier code never fails, full report or not: it ORs the code's bit into `MOD` and transmits (R9,
R100, R103). The ranges of the codes are general knowledge that R9 fixes (log 6). -/
def Obligations.KbPressOfAModifier : Prop :=
  ∀ (s : State) (code : Byte), 128 ≤ code.toNat → code.toNat < 136 →
    wordBytes (encode (.kbPress code)).word 0#8 0#8 code 0x01#8 ∧
    exec (.kbPress code) s = .next { s with
      mod := s.mod ||| modifierBit code
      tx := s.tx ++ keyboardFrame (s.mod ||| modifierBit code) s.keys
      fault := dataFault s
      resStatus := 0x00#8, resFlag := true, resLine := [], phase := .idle }

/-- KB_PRESS of a key whose usage is in some slot leaves `KEYS`, adds the shift bits, and transmits, full report or
not (R102, R103, C3; usage 0 by decision D34). The ranges of the codes are general knowledge that R9 fixes (log 6). -/
def Obligations.KbPressOfAHeldKey : Prop :=
  ∀ (s : State) (code u : Byte) (shift : Bool) (i : Fin 6), keyUsage s.asciiMap code u shift → s.keys.get i = u →
    exec (.kbPress code) s = .next { s with
      mod := s.mod ||| shiftBits shift s
      tx := s.tx ++ keyboardFrame (s.mod ||| shiftBits shift s) s.keys
      fault := dataFault s
      resStatus := 0x00#8, resFlag := true, resLine := [], phase := .idle }

/-- KB_PRESS of a key whose usage is in no slot puts it into the first empty slot, adds the shift bits, and
transmits the state after the commit (R101, R102, R103). The ranges of the codes are general knowledge that R9 fixes
(log 6). -/
def Obligations.KbPressFillsTheFirstEmptySlot : Prop :=
  ∀ (s : State) (code u : Byte) (shift : Bool) (j : Fin 6), keyUsage s.asciiMap code u shift →
    (∀ i, s.keys.get i ≠ u) → firstEmpty s.keys j →
    exec (.kbPress code) s = .next { s with
      mod := s.mod ||| shiftBits shift s
      keys := s.keys.set j u
      tx := s.tx ++ keyboardFrame (s.mod ||| shiftBits shift s) (s.keys.set j u)
      fault := dataFault s
      resStatus := 0x00#8, resFlag := true, resLine := [], phase := .idle }

/-- KB_PRESS of a key that needs a slot when none is empty reports REPORT_FULL, and of an unmapped ASCII code
UNMAPPABLE, full report or not; either way nothing is sent, no fault is recorded in either mode, and only the result
latch changes (R103, R200, R208). That `RES_LINE` keeps its value is the model's reading of R14 (log 9). The ranges
of the codes are general knowledge that R9 fixes (log 6). -/
def Obligations.KbPressErrorsChangeNothing : Prop :=
  ∀ (s : State) (code : Byte),
    (unmapped s.asciiMap code →
      exec (.kbPress code) s = .next { s with resStatus := 0x01#8, resFlag := false, phase := .idle }) ∧
    (∀ u shift, keyUsage s.asciiMap code u shift → (∀ i, s.keys.get i ≠ u) → (∀ i, s.keys.get i ≠ 0#8) →
      exec (.kbPress code) s = .next { s with resStatus := 0x02#8, resFlag := false, phase := .idle })

/-- KB_RELEASE clears the modifier's bit, or the key's shift bits and every slot that holds its usage, or nothing
for an unmapped code; it succeeds and transmits in every case (R104; decisions D22, D34). The ranges of the codes
are general knowledge that R9 fixes (log 6). -/
def Obligations.KbReleaseClearsAndTransmits : Prop :=
  ∀ (s : State) (code : Byte),
    wordBytes (encode (.kbRelease code)).word 0#8 0#8 code 0x02#8 ∧
    ∃ (m : Byte) (k : KeyFile),
      exec (.kbRelease code) s = .next { s with
        mod := m, keys := k, tx := s.tx ++ keyboardFrame m k, fault := dataFault s,
        resStatus := 0x00#8, resFlag := true, resLine := [], phase := .idle } ∧
      (128 ≤ code.toNat → code.toNat < 136 → m = s.mod &&& ~~~(modifierBit code) ∧ k = s.keys) ∧
      (unmapped s.asciiMap code → m = s.mod ∧ k = s.keys) ∧
      (∀ u shift, keyUsage s.asciiMap code u shift →
        m = s.mod &&& ~~~(shiftBits shift s) ∧
          ∀ i, k.get i = if s.keys.get i = u then 0#8 else s.keys.get i)

/-- KB_RELEASE_ALL zeroes `MOD` and every slot and transmits exactly once (R105). -/
def Obligations.KbReleaseAllEmptiesTheReport : Prop :=
  ∀ s : State,
    encode .kbReleaseAll = ⟨0x00000003#32, []⟩ ∧
    exec .kbReleaseAll s = .next { s with
      mod := 0x00#8
      keys := ⟨0x00#8, 0x00#8, 0x00#8, 0x00#8, 0x00#8, 0x00#8⟩
      tx := s.tx ++ [0xFD#8, 0x09#8, 0x01#8, 0x00#8, 0x00#8, 0x00#8, 0x00#8, 0x00#8, 0x00#8, 0x00#8, 0x00#8]
      fault := dataFault s
      resStatus := 0x00#8, resFlag := true, resLine := [], phase := .idle }

/-- KB_WRITE of a key that is not held, with a slot empty: two frames, the pressed state and then the released one;
`KEYS` ends as it was and the shift bits end clear if the key needs shift (R106; decision D22). The ranges of the
codes are general knowledge that R9 fixes (log 6). -/
def Obligations.KbWriteTypesOneKey : Prop :=
  ∀ (s : State) (code u : Byte) (shift : Bool) (j : Fin 6), keyUsage s.asciiMap code u shift →
    (∀ i, s.keys.get i ≠ u) → firstEmpty s.keys j →
    wordBytes (encode (.kbWrite code)).word 0#8 0#8 code 0x04#8 ∧
    exec (.kbWrite code) s = .next { s with
      mod := s.mod &&& ~~~(shiftBits shift s)
      tx := s.tx ++ keyboardFrame (s.mod ||| shiftBits shift s) (s.keys.set j u)
        ++ keyboardFrame (s.mod &&& ~~~(shiftBits shift s)) s.keys
      fault := dataFault s
      resStatus := 0x00#8, resFlag := true, resLine := [], phase := .idle }

/-- KB_WRITE of a modifier code: two frames, the bit set and then clear (R106). The ranges of the codes are general
knowledge that R9 fixes (log 6). -/
def Obligations.KbWriteOfAModifier : Prop :=
  ∀ (s : State) (code : Byte), 128 ≤ code.toNat → code.toNat < 136 →
    exec (.kbWrite code) s = .next { s with
      mod := s.mod &&& ~~~(modifierBit code)
      tx := s.tx ++ keyboardFrame (s.mod ||| modifierBit code) s.keys
        ++ keyboardFrame (s.mod &&& ~~~(modifierBit code)) s.keys
      fault := dataFault s
      resStatus := 0x00#8, resFlag := true, resLine := [], phase := .idle }

/-- KB_WRITE whose press part fails: the release part still runs and sends the one frame, and the press's error is
the result (R106, R107; decisions D22, D23). The ranges of the codes are general knowledge that R9 fixes (log 6). -/
def Obligations.KbWriteAfterAFailedPress : Prop :=
  ∀ (s : State) (code : Byte),
    (unmapped s.asciiMap code →
      exec (.kbWrite code) s = .next { s with
        tx := s.tx ++ keyboardFrame s.mod s.keys, fault := dataFault s,
        resStatus := 0x01#8, resFlag := false, resLine := [], phase := .idle }) ∧
    (∀ u shift, keyUsage s.asciiMap code u shift → (∀ i, s.keys.get i ≠ u) → (∀ i, s.keys.get i ≠ 0#8) →
      exec (.kbWrite code) s = .next { s with
        mod := s.mod &&& ~~~(shiftBits shift s)
        tx := s.tx ++ keyboardFrame (s.mod &&& ~~~(shiftBits shift s)) s.keys
        fault := dataFault s
        resStatus := 0x02#8, resFlag := false, resLine := [], phase := .idle })

/-- KB_WRITE whose press succeeds is KB_PRESS and then KB_RELEASE of the same code, two calls in one step (R106,
C5). -/
def Obligations.KbWriteIsPressThenRelease : Prop :=
  ∀ (s t : State) (code : Byte), exec (.kbPress code) s = .next t → t.resStatus = 0x00#8 →
    exec (.kbWrite code) s = exec (.kbRelease code) t

/-- How many bytes each keyboard operation sends, by its outcome: 11 for each frame that R107 counts. -/
def Obligations.KeyboardFrameCounts : Prop :=
  ∀ (s : State) (code : Byte),
    (∃ t, exec (.kbPress code) s = .next t ∧
      t.tx.length = s.tx.length + (if t.resStatus = 0x00#8 then 11 else 0)) ∧
    (∃ t, exec (.kbRelease code) s = .next t ∧ t.resStatus = 0x00#8 ∧ t.tx.length = s.tx.length + 11) ∧
    (∃ t, exec .kbReleaseAll s = .next t ∧ t.resStatus = 0x00#8 ∧ t.tx.length = s.tx.length + 11) ∧
    (∃ t, exec (.kbWrite code) s = .next t ∧
      t.tx.length = s.tx.length + (if t.resStatus = 0x00#8 then 22 else 11))

/-- The press and release round trip: a mapped ASCII code whose usage is in no slot, with a slot empty and, if the
code needs shift, the shift bits clear, restores `MOD` and `KEYS` exactly (R109). The converse that R109 also words
is not stated: it fails on a full report (log 21). The ranges of the codes are general knowledge that R9 fixes (log
6). -/
def Obligations.PressThenReleaseRestores : Prop :=
  ∀ (s : State) (code u : Byte) (shift : Bool) (j : Fin 6), code.toNat < 128 → keyUsage s.asciiMap code u shift →
    (∀ i, s.keys.get i ≠ u) → s.keys.get j = 0#8 → (shift = true → s.mod &&& s.params.lshiftMask = 0#8) →
    ∃ t t', exec (.kbPress code) s = .next t ∧ t.resStatus = 0x00#8 ∧
      exec (.kbRelease code) t = .next t' ∧ t'.mod = s.mod ∧ t'.keys = s.keys

/-- Seven keys: from empty slots, six presses of non-modifier codes with distinct non-zero usages fill the slots in
order; the seventh reports REPORT_FULL and leaves `MOD`, `KEYS` and TX (R110). The ranges of the codes are general
knowledge that R9 fixes (log 6). -/
def Obligations.SeventhKeyIsRefused : Prop :=
  ∀ (s : State) (c u : Fin 7 → Byte) (sh : Fin 7 → Bool),
    (∀ n, keyUsage s.asciiMap (c n) (u n) (sh n)) → (∀ n, u n ≠ 0#8) → (∀ n m, n ≠ m → u n ≠ u m) →
    s.keys = ⟨0#8, 0#8, 0#8, 0#8, 0#8, 0#8⟩ →
    (pressAll [c 0, c 1, c 2, c 3, c 4, c 5] s).keys = ⟨u 0, u 1, u 2, u 3, u 4, u 5⟩ ∧
    (pressAll [c 0, c 1, c 2, c 3, c 4, c 5] s).resStatus = 0x00#8 ∧
    ∃ t, exec (.kbPress (c 6)) (pressAll [c 0, c 1, c 2, c 3, c 4, c 5] s) = .next t ∧
      t.resStatus = 0x02#8 ∧ t.resFlag = false ∧
      t.mod = (pressAll [c 0, c 1, c 2, c 3, c 4, c 5] s).mod ∧
      t.keys = (pressAll [c 0, c 1, c 2, c 3, c 4, c 5] s).keys ∧
      t.tx = (pressAll [c 0, c 1, c 2, c 3, c 4, c 5] s).tx

/-! ## Mouse (41_mouse.md) -/

/-- MS_MOVE sends one 7-byte frame of `BTN` and the three motion bytes as they are, unconditionally (R131). -/
def Obligations.MsMoveSendsOneReport : Prop :=
  ∀ (s : State) (dx dy dw : Byte),
    wordBytes (encode (.msMove dx dy dw)).word dw dy dx 0x10#8 ∧
    exec (.msMove dx dy dw) s = .next { s with
      tx := s.tx ++ mouseFrame s.btn dx dy dw
      fault := dataFault s
      resStatus := 0x00#8, resFlag := true, resLine := [], phase := .idle }

/-- MS_CLICK sends two frames, the mask's bits set and then clear, whatever they were before (R132; OR and AND-NOT
by decision D32). -/
def Obligations.MsClickSendsTwoReports : Prop :=
  ∀ (s : State) (mask : Byte),
    wordBytes (encode (.msClick mask)).word 0#8 0#8 mask 0x11#8 ∧
    exec (.msClick mask) s = .next { s with
      btn := s.btn &&& ~~~mask
      tx := s.tx ++ mouseFrame (s.btn ||| mask) 0#8 0#8 0#8 ++ mouseFrame (s.btn &&& ~~~mask) 0#8 0#8 0#8
      fault := dataFault s
      resStatus := 0x00#8, resFlag := true, resLine := [], phase := .idle }

/-- MS_PRESS sets the mask's bits and sends one frame if that changes `BTN`; if not, only the result latch is
written and no mode fault is recorded (R133). -/
def Obligations.MsPressReportsOnlyAChange : Prop :=
  ∀ (s : State) (mask : Byte),
    wordBytes (encode (.msPress mask)).word 0#8 0#8 mask 0x12#8 ∧
    (s.btn ||| mask ≠ s.btn → exec (.msPress mask) s = .next { s with
      btn := s.btn ||| mask
      tx := s.tx ++ mouseFrame (s.btn ||| mask) 0#8 0#8 0#8
      fault := dataFault s
      resStatus := 0x00#8, resFlag := true, resLine := [], phase := .idle }) ∧
    (s.btn ||| mask = s.btn → exec (.msPress mask) s = .next { s with
      resStatus := 0x00#8, resFlag := true, resLine := [], phase := .idle })

/-- MS_RELEASE clears the mask's bits and sends one frame if that changes `BTN`; if not, only the result latch is
written and no mode fault is recorded (R134). -/
def Obligations.MsReleaseReportsOnlyAChange : Prop :=
  ∀ (s : State) (mask : Byte),
    wordBytes (encode (.msRelease mask)).word 0#8 0#8 mask 0x13#8 ∧
    (s.btn &&& ~~~mask ≠ s.btn → exec (.msRelease mask) s = .next { s with
      btn := s.btn &&& ~~~mask
      tx := s.tx ++ mouseFrame (s.btn &&& ~~~mask) 0#8 0#8 0#8
      fault := dataFault s
      resStatus := 0x00#8, resFlag := true, resLine := [], phase := .idle }) ∧
    (s.btn &&& ~~~mask = s.btn → exec (.msRelease mask) s = .next { s with
      resStatus := 0x00#8, resFlag := true, resLine := [], phase := .idle })

/-- MS_IS_PRESSED answers whether every bit of the mask is set in `BTN`, and writes the result latch alone (R135). -/
def Obligations.MsIsPressedAsksForAllBits : Prop :=
  ∀ (s : State) (mask : Byte),
    wordBytes (encode (.msIsPressed mask)).word 0#8 0#8 mask 0x14#8 ∧
    ∃ answer : Bool,
      exec (.msIsPressed mask) s = .next { s with
        resStatus := 0x00#8, resFlag := answer, resLine := [], phase := .idle } ∧
      (answer = true ↔ ∀ n, n < 8 → mask.getLsbD n = true → s.btn.getLsbD n = true)

/-! ## Radio link (42_radiolink.md) -/

/-- RL_ENTER_CMD, first step: a zero byte and `$$$` go out and the line read starts with `RESP` empty (R153; the
fault by decision D6). -/
def Obligations.RlEnterCmdStartsTheEntryLine : Prop :=
  ∀ s : State,
    encode .rlEnterCmd = ⟨0x00000020#32, []⟩ ∧
    exec .rlEnterCmd s = .next { s with
      tx := s.tx ++ [0x00#8, 0x24#8, 0x24#8, 0x24#8]
      fault := dataFault s
      resp := [], phase := .readLine .enter }

/-- RL_SEND_CMD, first step: the text goes out verbatim, no CR appended, and the line read starts (R155; decision
D26). -/
def Obligations.RlSendCmdSendsTheTextAndReads : Prop :=
  ∀ (s : State) (text : List Byte),
    sequenceRequest (encode (.rlSendCmd text)) 0x00#8 0x21#8 text ∧
    exec (.rlSendCmd text) s = .next { s with
      tx := s.tx ++ text
      fault := commandFault s
      resp := [], phase := .readLine .cmd }

/-- The CR of an entry's line: exactly `CMD` enters Command mode with success, any other line fails and leaves
`MODE`; the CR is consumed, `RESP` discarded, `RES_LINE` empty (R154; decision D24; that it is the block's turn:
log 2). What the first step sent and recorded stays beside the error, which is the model's choice against the words of
R209 (log 26). -/
def Obligations.EntryLineEnds : Prop :=
  ∀ (s : State) (rest : List Byte) (ts : List Turn), s.phase = .readLine .enter → blockTurn s ts →
    s.rx = 0x0D#8 :: rest →
    (s.resp = [0x43#8, 0x4D#8, 0x44#8] → step s = .next { s with
      turns := ts, rx := rest, resp := [], mode := .command,
      resStatus := 0x00#8, resFlag := true, resLine := [], phase := .idle }) ∧
    (s.resp ≠ [0x43#8, 0x4D#8, 0x44#8] → step s = .next { s with
      turns := ts, rx := rest, resp := [],
      resStatus := 0x03#8, resFlag := false, resLine := [], phase := .idle })

/-- The CR of a command's line: the line, terminator stripped, is the result (R156; that it is the block's
turn: log 2). -/
def Obligations.CommandLineEnds : Prop :=
  ∀ (s : State) (rest : List Byte) (ts : List Turn), s.phase = .readLine .cmd → blockTurn s ts →
    s.rx = 0x0D#8 :: rest →
    step s = .next { s with
      turns := ts, rx := rest, resp := [], resStatus := 0x00#8, resFlag := true, resLine := s.resp, phase := .idle }

/-- RL_ENTER_CMD end to end: from an accepted request with a line waiting in RX that fits `RESP`, the block sends
the entry sequence, reads exactly that line and its CR, and is Idle after `length + 2` steps, in Command mode
by this entry exactly if the line is `CMD`; the bytes after the CR stay (R152 to R154; decisions D6, D17). The
environment is silent meanwhile (log 2), and `OPND` may be any sequence that fits the operand buffer (log 10, 22).
That a failed entry keeps the bytes on TX and the recorded mode fault beside its error status is the model's choice
against the words of R209 (log 26). -/
def Obligations.CommandEntryReadsOneLine : Prop :=
  ∀ (s : State) (line rest : List Byte), s.phase = .idle → s.reqValid = true → s.req = 0x20#32 →
    s.opnd.length ≤ s.params.operandCap.val → s.turns = [] →
    s.rx = line ++ 0x0D#8 :: rest → 0x0D#8 ∉ line → line.length ≤ s.params.respCap →
    (Sys2Proof.core.run (line.length + 2) s : Host.Outcome State Fault Refusal) = .next { s with
      reqValid := false
      mode := if line = [0x43#8, 0x4D#8, 0x44#8] then .command else s.mode
      resp := []
      tx := s.tx ++ [0x00#8, 0x24#8, 0x24#8, 0x24#8]
      rx := rest
      fault := dataFault s
      resStatus := if line = [0x43#8, 0x4D#8, 0x44#8] then 0x00#8 else 0x03#8
      resFlag := decide (line = [0x43#8, 0x4D#8, 0x44#8])
      resLine := [], phase := .idle }

/-- RL_SEND_CMD end to end: from an accepted request with a line waiting in RX that fits `RESP`, the text goes out and
the block is Idle after `length + 2` steps; that oldest line in RX, whatever it answers, is the result, and the bytes
after its CR stay (R60, R152, R155, R156; decisions D17, D26). The environment is silent meanwhile (log 2). -/
def Obligations.CommandExchangeReturnsTheLine : Prop :=
  ∀ (s : State) (text line rest : List Byte), s.phase = .idle → s.reqValid = true →
    decode s.params.operandCap s.req s.opnd = .ok (.rlSendCmd text) → s.turns = [] →
    s.rx = line ++ 0x0D#8 :: rest → 0x0D#8 ∉ line → line.length ≤ s.params.respCap →
    (Sys2Proof.core.run (line.length + 2) s : Host.Outcome State Fault Refusal) = .next { s with
      reqValid := false
      resp := []
      tx := s.tx ++ text
      rx := rest
      fault := commandFault s
      resStatus := 0x00#8, resFlag := true, resLine := line, phase := .idle }

/-- A line longer than `RESP` can hold: the byte that does not fit is consumed and not stored, RESP_OVERFLOW is
recorded and the block halts (R38, R205; decision D7; the environment is silent meanwhile, log 2). -/
def Obligations.OverlongLineHalts : Prop :=
  ∀ (s : State) (k : Exchange) (line rest : List Byte) (b : Byte), s.phase = .readLine k → s.turns = [] →
    s.rx = line ++ b :: rest → 0x0D#8 ∉ line → b ≠ 0x0D#8 → s.resp.length + line.length = s.params.respCap →
    (Sys2Proof.core.run (line.length + 1) s : Host.Outcome State Fault Refusal) = .next { s with
      resp := s.resp ++ line, rx := rest, fault := s.fault ||| 0b010#3, phase := .halted }

/-- A line read with RX empty: without an enabled timeout there is no step; an enabled timeout that is offered ends
the operation with NO_TERMINATOR, the bytes read so far lost and `MODE` unchanged; a waiting RX byte goes before the
timeout (R38, R207, R208; decision D8; the named stop is the model's, log 3, and so is the list of turns, log 2). That
an offer is an ordinary turn of the block, and is lost, where timeouts are disabled or an RX byte waits is the model's
reading (log 25). That a timeout keeps what the first step sent and recorded is the model's choice against the words
of R209 (log 26). -/
def Obligations.LineWaitsOrTimesOut : Prop :=
  ∀ (s : State) (k : Exchange) (ts : List Turn), s.phase = .readLine k →
    (s.rx = [] → blockTurn s ts → step s = .fault .lineHeld) ∧
    (s.rx = [] → s.turns = .timeout :: ts → s.params.timeoutEnabled = false → step s = .fault .lineHeld) ∧
    (s.rx = [] → s.turns = .timeout :: ts → s.params.timeoutEnabled = true → step s = .next { s with
      turns := ts, resp := [], resStatus := 0x04#8, resFlag := false, resLine := [], phase := .idle }) ∧
    (s.rx ≠ [] → s.turns = .timeout :: ts → step s = step { s with turns := .block :: ts })

/-- RL_EXIT_CMD sends `---\r`, sets `MODE` to Data unconditionally, reads nothing and leaves RX (R36, R157; the fault
by decision D6). That it leaves the radio's actual mode as well is the model's reading: R36 and U17 say only that this
mode is environment state and can be any value, and in the model no operation writes it (log 12). -/
def Obligations.RlExitCmdReturnsToData : Prop :=
  ∀ s : State,
    encode .rlExitCmd = ⟨0x00000022#32, []⟩ ∧
    exec .rlExitCmd s = .next { s with
      mode := .data
      tx := s.tx ++ [0x2D#8, 0x2D#8, 0x2D#8, 0x0D#8]
      fault := commandFault s
      resStatus := 0x00#8, resFlag := true, resLine := [], phase := .idle }

/-- RL_SEND_REPORT sends the frame of its bytes: start byte, length modulo 256, first byte swapped between 1 and 2,
the rest as it is (R83, R151, R158). -/
def Obligations.RlSendReportFramesItsBytes : Prop :=
  ∀ (s : State) (bytes : List Byte),
    sequenceRequest (encode (.rlSendReport bytes)) 0x00#8 0x23#8 bytes ∧
    exec (.rlSendReport bytes) s = .next { s with
      tx := s.tx ++ wireFrame bytes
      fault := dataFault s
      resStatus := 0x00#8, resFlag := true, resLine := [], phase := .idle }

/-- RL_SEND_CONTROL sends its bytes verbatim, with no frame, no swap and no mode check, and its flags have no effect
(R159; no mode check by decision D6). -/
def Obligations.RlSendControlPassesBytesThrough : Prop :=
  ∀ (s : State) (flags : Byte) (bytes : List Byte),
    sequenceRequest (encode (.rlSendControl flags bytes)) flags 0x24#8 bytes ∧
    exec (.rlSendControl flags bytes) s = .next { s with
      tx := s.tx ++ bytes
      resStatus := 0x00#8, resFlag := true, resLine := [], phase := .idle }

/-! ## Facade (43_facade.md) -/

/-- HID_SEND_REPORT sends the frame of the id followed by the data, and touches neither `MOD`, `KEYS` nor `BTN`
(R180, R181). -/
def Obligations.HidSendReportPrependsTheId : Prop :=
  ∀ (s : State) (id : Byte) (data : List Byte),
    sequenceRequest (encode (.hidSendReport id data)) id 0x30#8 data ∧
    exec (.hidSendReport id data) s = .next { s with
      tx := s.tx ++ [0xFD#8, BitVec.ofNat 8 (data.length + 1),
        if id = 1#8 then 2#8 else if id = 2#8 then 1#8 else id] ++ data
      fault := dataFault s
      resStatus := 0x00#8, resFlag := true, resLine := [], phase := .idle }

/-- The three enumeration stubs return success and change nothing but the result latch, in either mode (R182, R183,
R184). -/
def Obligations.EnumerationStubsDoNothing : Prop :=
  ∀ s : State,
    (encode .hidGetInterface = ⟨0x00000031#32, []⟩ ∧ exec .hidGetInterface s = .next { s with
      resStatus := 0x00#8, resFlag := true, resLine := [], phase := .idle }) ∧
    (encode .hidGetDescriptor = ⟨0x00000032#32, []⟩ ∧ exec .hidGetDescriptor s = .next { s with
      resStatus := 0x00#8, resFlag := true, resLine := [], phase := .idle }) ∧
    (encode .hidSetup = ⟨0x00000033#32, []⟩ ∧ exec .hidSetup s = .next { s with
      resStatus := 0x00#8, resFlag := true, resLine := [], phase := .idle })

/-! ## The whole machine -/

/-- The first step of every operation answers a next state in every state: none ends in a stop (R38, R201, R202). -/
def Obligations.EveryOperationAnswersANextState : Prop :=
  ∀ (i : Instr) (s : State), ∃ t, exec i s = .next t

/-- The mode machine: after every step of every agent, `MODE` is what the table of R150 says, and no other event
changes it. That the word of RL_EXIT_CMD with an operand sequence longer than `OPERAND_CAP` is an illegal request, and
so leaves `MODE`, is the model's reading (log 22), and so is that the word is RL_EXIT_CMD with any `OPND` that fits,
which R78 does not look at (log 10), and that a timeout offered outside a line read changes nothing (log 25). -/
def Obligations.ModeFollowsTheModeMachine : Prop :=
  ∀ s s' : State, step s = .next s' → s'.mode = modeAfter s

/-- `MODE_VIOLATION` is recorded by an operation's first step in the four cases of R204 and in no others, and that step
records no other fault. For an operation that sends frames, case (a) is the sending of one while `MODE = 1`. A line
read that follows can still record RESP_OVERFLOW (R205). -/
def Obligations.ModeViolationExactlyInItsCases : Prop :=
  ∀ (i : Instr) (s t : State), exec i s = .next t →
    ((sendsFrames i = true ∧ t.tx ≠ s.tx ∧ s.mode = .command) ∨ (i.op = .rlSendCmd ∧ s.mode = .data) ∨
        (i = .rlEnterCmd ∧ s.mode = .command) ∨ (i = .rlExitCmd ∧ s.mode = .data) →
      t.fault = s.fault ||| 0b001#3) ∧
    (¬ ((sendsFrames i = true ∧ t.tx ≠ s.tx ∧ s.mode = .command) ∨ (i.op = .rlSendCmd ∧ s.mode = .data) ∨
        (i = .rlEnterCmd ∧ s.mode = .command) ∨ (i = .rlExitCmd ∧ s.mode = .data)) →
      t.fault = s.fault)

/-- A caller that keeps the mode contract gets no fault from an operation's first step: a safe state stays safe (R202,
R204, R240). The premise takes the contract by the operation's kind, and so asks Data also of a press or release that
sends nothing, which is the model's choice (log 28). That such a call records no fault in either mode is said by
`Obligations.ModeViolationExactlyInItsCases`. A line read that follows can still record RESP_OVERFLOW (R205). -/
def Obligations.KeptContractStaysSafe : Prop :=
  ∀ (i : Instr) (s t : State), contractKept i s → SafeState s → exec i s = .next t → SafeState t

/-- `FAULT` is sticky: a bit that is set stays set through every step but a reset (R31, R202). -/
def Obligations.FaultBitsAreSticky : Prop :=
  ∀ (s s' : State) (n : Nat), step s = .next s' → turnOf s ≠ .reset → s.fault.getLsbD n = true →
    s'.fault.getLsbD n = true

/-- TX is append-only through every step, reset included: what was sent stays sent (R40, R59, R232). -/
def Obligations.TxIsAppendOnly : Prop :=
  ∀ s s' : State, step s = .next s' → ∃ sent, s'.tx = s.tx ++ sent

/-- RX is a FIFO through every step: it stays, or the peer appended one byte, or a line read of the block took the
oldest byte; reset does not flush it (R35, R40, R51, R232). -/
def Obligations.RxIsAFifo : Prop :=
  ∀ s s' : State, step s = .next s' →
    s'.rx = s.rx ∨ (∃ b, turnOf s = .peerSend b ∧ s'.rx = s.rx ++ [b]) ∨
      (∃ k b, s.phase = .readLine k ∧ (turnOf s = .block ∨ turnOf s = .timeout) ∧ s.rx = b :: s'.rx)

/-- No step writes `ASCII_MAP` or a parameter, and the radio's actual mode changes by the peer's turn alone (R26,
R36, R233). The parameters as data of State, and what moves the radio's mode: log 4 and 12. -/
def Obligations.TableParametersAndRadioAreNotWritten : Prop :=
  ∀ s s' : State, step s = .next s' →
    s'.asciiMap = s.asciiMap ∧ s'.params = s.params ∧
      (s'.radioMode = s.radioMode ∨ ∃ m, turnOf s = .peerMode m ∧ s'.radioMode = m)

/-- The access table: what an operation's first step leaves unchanged, by the columns that have no `w` for it: `MODE`,
`MOD`, `KEYS`, `BTN`, `RESP`, `FAULT`, TX and RX (R37). What the table has no column for rests on other rules: the
request latch is the host's, and `REQ_VALID` is cleared before the operation is executed (R32, R38), no operation
writes `ASCII_MAP` (R26), and every first step but that of RL_ENTER_CMD and RL_SEND_CMD leaves `PHASE` Idle (R33, R153,
R155). That the parameters are data of State, the count of consumed TX bytes, the radio's actual mode (environment
state by R36) and the list of turns stay is the model's reading: log 4, 11, 12 and 2. -/
def Obligations.OperationsKeepToTheAccessTable : Prop :=
  ∀ (i : Instr) (s t : State), exec i s = .next t →
    (i ≠ .rlExitCmd → t.mode = s.mode) ∧
    (writesKeys i = false → t.mod = s.mod ∧ t.keys = s.keys) ∧
    (writesBtn i = false → t.btn = s.btn) ∧
    (i.op ≠ .rlEnterCmd → i.op ≠ .rlSendCmd → t.resp = s.resp ∧ t.phase = .idle) ∧
    (i.op = .msIsPressed ∨ i.op = .hidGetInterface ∨ i.op = .hidGetDescriptor ∨ i.op = .hidSetup →
      t.tx = s.tx ∧ t.fault = s.fault) ∧
    (i.op = .rlSendControl → t.fault = s.fault) ∧
    t.asciiMap = s.asciiMap ∧ t.params = s.params ∧ t.rx = s.rx ∧ t.txTaken = s.txTaken ∧ t.req = s.req ∧
      t.opnd = s.opnd ∧ t.reqValid = s.reqValid ∧ t.radioMode = s.radioMode ∧ t.turns = s.turns

/-- No operation reads `FAULT` or the result latch, in its first step or in the steps of its line read, and no other
step does: what it does to all other state does not depend on them, and an operation that completes writes the same
status and flag (R31, R34). -/
def Obligations.NoOperationReadsFaultOrResult : Prop :=
  (∀ (i : Instr) (s : State) (f : BitVec 3) (st : Byte) (fl : Bool) (ln : List Byte),
    ∃ t t', exec i s = .next t ∧
      exec i { s with fault := f, resStatus := st, resFlag := fl, resLine := ln } = .next t' ∧
      t' = { t with fault := t'.fault, resStatus := t'.resStatus, resFlag := t'.resFlag, resLine := t'.resLine } ∧
      (t.phase = .idle → t'.resStatus = t.resStatus ∧ t'.resFlag = t.resFlag)) ∧
  (∀ (s t : State) (f : BitVec 3) (st : Byte) (fl : Bool) (ln : List Byte), step s = .next t →
    ∃ t', step { s with fault := f, resStatus := st, resFlag := fl, resLine := ln } = .next t' ∧
      t' = { t with fault := t'.fault, resStatus := t'.resStatus, resFlag := t'.resFlag, resLine := t'.resLine } ∧
      (∀ k, s.phase = .readLine k → t.phase = .idle →
        t'.resStatus = t.resStatus ∧ t'.resFlag = t.resFlag ∧ t'.resLine = t.resLine))

/-- "each non-zero slot holds a distinct HID usage code" is kept by every step (R24, R108). -/
def Obligations.EveryStepKeepsKeysDistinct : Prop :=
  ∀ s s' : State, KeysDistinct s.keys → step s = .next s' → KeysDistinct s'.keys

/-- Every step of every agent keeps the state invariant `Inv` (R20, R24, R28, R34, R41, R156, R200, R202, R203;
`Inv` is stated in Sys2Proof/Safety.lean). Its clauses on `OPND` and on the consumed bytes of TX rest on log 22 and
11. -/
def Obligations.EveryStepKeepsTheInvariant : Prop :=
  ∀ s s' : State, Inv s → step s = .next s' → Inv s'

/-- The state after reset has the invariant (R39). It holds of the values that the model chose for the parameters
and for `OPND` (log 4 and 7). -/
def Obligations.ResetHasTheInvariant : Prop := Inv State.reset

/-- The state after the power-on reset, for every register whose value the spec gives, and the launch premise of
R235 (R39, R230, R231; the values are the spec's own decision D9). RX and the radio's actual mode at launch are the
model's choice (log 8), and so is which of R235's clauses `Launch` names (log 27). -/
def Obligations.ResetStateIsTheSpecs : Prop :=
  State.reset.mode = .data ∧ State.reset.mod = 0x00#8 ∧ (∀ i, State.reset.keys.get i = 0x00#8) ∧
    State.reset.btn = 0x00#8 ∧ State.reset.resp = [] ∧ State.reset.phase = .idle ∧ State.reset.fault = 0b000#3 ∧
    State.reset.reqValid = false ∧ State.reset.resStatus = 0x00#8 ∧ State.reset.resFlag = false ∧
    State.reset.resLine = [] ∧ State.reset.ready = true ∧ State.reset.tx = [] ∧ Launch State.reset

/-- A request whose operand sequence is longer than `OPERAND_CAP` is refused whatever its word: ILLEGAL_REQUEST is
recorded, the block halts, nothing is sent and nothing else changes (R32, R206, U8; outside format S the refusal is
the model's reading, log 22; that it is the block's turn: log 2). -/
def Obligations.OverlongOperandsHalt : Prop :=
  ∀ (s : State) (ts : List Turn), s.phase = .idle → s.reqValid = true →
    s.params.operandCap.val < s.opnd.length → blockTurn s ts →
    step s = .next { s with turns := ts, reqValid := false, fault := s.fault ||| 0b100#3, phase := .halted }

/-- One RX byte of a line read that is no CR: unless `RESP` holds `RESP_CAP` bytes, the byte is consumed and appended to
`RESP`, and nothing else changes; if it does, the byte is consumed and not stored, RESP_OVERFLOW is recorded and the
block halts (R28, R38, R205; decision D7; that it is the block's turn: log 2). -/
def Obligations.LineReadTakesOneByte : Prop :=
  ∀ (s : State) (k : Exchange) (b : Byte) (rest : List Byte) (ts : List Turn), s.phase = .readLine k →
    blockTurn s ts → s.rx = b :: rest → b ≠ 0x0D#8 →
    (s.resp.length ≠ s.params.respCap →
      step s = .next { s with turns := ts, rx := rest, resp := s.resp ++ [b] }) ∧
    (s.resp.length = s.params.respCap →
      step s = .next { s with turns := ts, rx := rest, fault := s.fault ||| 0b010#3, phase := .halted })

/-- Errors are precise. An operation other than KB_WRITE that completes in its first step with an error status has
changed nothing but the result latch: no register, no fault, no byte on TX; that KB_PRESS keeps `RES_LINE` is the
model's reading of R14 (log 9). A step that completes a line read with an error status changes nothing but RX, `RESP`,
the result latch and the list of turns (log 2): `MODE` and every other register are left as they were (R201, R207,
R209). What RL_ENTER_CMD or RL_SEND_CMD sent and recorded before that line read stays: there the model follows R153 and
R155 against the words of R209 (log 26). -/
def Obligations.ErrorsArePrecise : Prop :=
  (∀ (i : Instr) (s t : State), i.op ≠ .kbWrite → exec i s = .next t → t.phase = .idle → t.resStatus ≠ 0x00#8 →
    t = { s with resStatus := t.resStatus, resFlag := false, phase := .idle }) ∧
  (∀ (s t : State) (k : Exchange), s.phase = .readLine k → step s = .next t → t.phase = .idle →
    t.resStatus ≠ 0x00#8 →
    t = { s with
      turns := s.turns.tail, rx := t.rx, resp := []
      resStatus := t.resStatus, resFlag := false, resLine := [], phase := .idle })
end

