-- ==== Sys2Proof/Laws/Encoding.lean ====
section
/-! SUPPORT. The fields of the words the encoder writes, the opcode map read back, and the byte bus. -/

namespace Sys2Proof

/-- Each opcode byte names its own operation: no two rows of R77 share one. -/
@[simp] theorem Op.ofByte?_code (o : Op) : Op.ofByte? o.code = some o := by
  cases o <;> decide

/-- A byte that names an operation is that operation's opcode. -/
theorem Op.code_of_ofByte? {b : Byte} {o : Op} (h : Op.ofByte? b = some o) : o.code = b := by
  have := List.find?_some h
  simpa using this

@[simp] theorem opField_wordN (o : Op) : opField (wordN o) = o.code := by
  cases o <;> decide

@[simp] theorem reservedN_wordN (o : Op) : reservedN (wordN o) = 0#24 := by
  cases o <;> decide

/-- Bit `i` of a placed field is bit `i - lo` of the field (R11). -/
theorem getLsbD_place (lo : Nat) {n : Nat} (v : BitVec n) (i : Nat) :
    (place lo v).getLsbD i = (decide (i < 32) && (decide (lo ≤ i) && v.getLsbD (i - lo))) := by
  by_cases h1 : i < 32 <;> by_cases h2 : lo ≤ i <;> simp [place, h1, h2, BitVec.getLsbD_setWidth]

/-- A placed field read at its own bits. -/
theorem getLsbD_place_hit (lo : Nat) {n : Nat} (v : BitVec n) (i : Nat) (h : lo + i < 32) :
    (place lo v).getLsbD (lo + i) = v.getLsbD i := by
  simp only [getLsbD_place, h, Nat.le_add_right, Nat.add_sub_cancel_left, decide_true, Bool.true_and]

/-- A placed field leaves the bits below it zero. -/
theorem getLsbD_place_below (lo : Nat) {n : Nat} (v : BitVec n) (i : Nat) (h : i < lo) :
    (place lo v).getLsbD i = false := by
  simp only [getLsbD_place, Nat.not_le.mpr h, decide_false, Bool.false_and, Bool.and_false]

/-- A placed field leaves the bits above it zero. -/
theorem getLsbD_place_above (lo : Nat) {n : Nat} (v : BitVec n) (i : Nat) (h : lo + n ≤ i) :
    (place lo v).getLsbD i = false := by
  rw [getLsbD_place, BitVec.getLsbD_of_ge v (i - lo) (by omega), Bool.and_false, Bool.and_false]

/-- A field of a word is `v` if it has `v`'s bits. -/
theorem field_eq (lo n : Nat) (w : Word) (v : BitVec n) (h : ∀ i, i < n → w.getLsbD (lo + i) = v.getLsbD i) :
    w.extractLsb' lo n = v := by
  apply BitVec.eq_of_getLsbD_eq
  intro i hi
  rw [BitVec.getLsbD_extractLsb', h i hi]
  simp only [hi, decide_true, Bool.true_and]

@[simp] theorem opField_wordKB (o : Op) (x : Byte) : opField (wordKB o x) = o.code := by
  refine field_eq 0 8 _ _ fun i hi => ?_
  simp (disch := omega) only [wordKB, BitVec.getLsbD_or, getLsbD_place_below 8, getLsbD_place_hit 0,
    Bool.false_or]

@[simp] theorem xField_wordKB (o : Op) (x : Byte) : xField (wordKB o x) = x := by
  refine field_eq 8 8 _ _ fun i hi => ?_
  simp (disch := omega) only [wordKB, BitVec.getLsbD_or, getLsbD_place_hit 8, getLsbD_place_above 0,
    Bool.or_false]

@[simp] theorem reservedKB_wordKB (o : Op) (x : Byte) : reservedKB (wordKB o x) = 0#16 := by
  refine field_eq 16 16 _ _ fun i hi => ?_
  simp (disch := omega) only [wordKB, BitVec.getLsbD_or, getLsbD_place_above 8, getLsbD_place_above 0,
    Bool.or_false, BitVec.getLsbD_zero]

@[simp] theorem opField_wordM (o : Op) (dx dy dw : Byte) : opField (wordM o dx dy dw) = o.code := by
  refine field_eq 0 8 _ _ fun i hi => ?_
  simp (disch := omega) only [wordM, BitVec.getLsbD_or, getLsbD_place_below 24, getLsbD_place_below 16, getLsbD_place_below 8, getLsbD_place_hit 0,
    Bool.or_false, Bool.false_or]

@[simp] theorem xField_wordM (o : Op) (dx dy dw : Byte) : xField (wordM o dx dy dw) = dx := by
  refine field_eq 8 8 _ _ fun i hi => ?_
  simp (disch := omega) only [wordM, BitVec.getLsbD_or, getLsbD_place_below 24, getLsbD_place_below 16, getLsbD_place_hit 8, getLsbD_place_above 0,
    Bool.or_false, Bool.false_or]

@[simp] theorem dyField_wordM (o : Op) (dx dy dw : Byte) : dyField (wordM o dx dy dw) = dy := by
  refine field_eq 16 8 _ _ fun i hi => ?_
  simp (disch := omega) only [wordM, BitVec.getLsbD_or, getLsbD_place_below 24, getLsbD_place_hit 16, getLsbD_place_above 8, getLsbD_place_above 0,
    Bool.or_false, Bool.false_or]

@[simp] theorem dwField_wordM (o : Op) (dx dy dw : Byte) : dwField (wordM o dx dy dw) = dw := by
  refine field_eq 24 8 _ _ fun i hi => ?_
  simp (disch := omega) only [wordM, BitVec.getLsbD_or, getLsbD_place_hit 24, getLsbD_place_above 16, getLsbD_place_above 8, getLsbD_place_above 0,
    Bool.or_false]

@[simp] theorem opField_wordS (o : Op) (x : Byte) (opnd : List Byte) : opField (wordS o x opnd) = o.code := by
  refine field_eq 0 8 _ _ fun i hi => ?_
  simp (disch := omega) only [wordS, BitVec.getLsbD_or, getLsbD_place_below 16, getLsbD_place_below 8, getLsbD_place_hit 0,
    Bool.or_false, Bool.false_or]

@[simp] theorem xField_wordS (o : Op) (x : Byte) (opnd : List Byte) : xField (wordS o x opnd) = x := by
  refine field_eq 8 8 _ _ fun i hi => ?_
  simp (disch := omega) only [wordS, BitVec.getLsbD_or, getLsbD_place_below 16, getLsbD_place_hit 8, getLsbD_place_above 0,
    Bool.or_false, Bool.false_or]

/-- `LEN` reads back the operand count as long as 16 bits hold it. -/
theorem lenField_wordS (o : Op) (x : Byte) (opnd : List Byte) (h : opnd.length < 65536) :
    lenField (wordS o x opnd) = opnd.length := by
  have hbits : (wordS o x opnd).extractLsb' 16 16 = BitVec.ofNat 16 opnd.length := by
    refine field_eq 16 16 _ _ fun i hi => ?_
    simp (disch := omega) only [wordS, BitVec.getLsbD_or, getLsbD_place_hit 16, getLsbD_place_above 8,
      getLsbD_place_above 0, Bool.or_false]
  rw [lenField, hbits, BitVec.toNat_ofNat, Nat.mod_eq_of_lt h]

/-- What it means for a sequence to fit. -/
@[simp] theorem operandFits_iff {cap : Fin 65536} {bytes : List Byte} :
    operandFits cap bytes = true ↔ bytes.length ≤ cap.val := by
  rw [operandFits, decide_eq_true_iff]

/-- A request decodes exactly if `OPND` fits the buffer (R32) and its word passes the checks of R78. -/
theorem decode_eq_ok {cap : Fin 65536} {req : Word} {opnd : List Byte} {i : Instr} :
    decode cap req opnd = .ok i ↔
      opnd.length ≤ cap.val ∧ ∃ o, Op.ofByte? (opField req) = some o ∧ formatCheck o.format cap req opnd = none ∧
        i = assembleOperands o req opnd := by
  unfold decode decodeFitting
  by_cases h : opnd.length ≤ cap.val
  · rw [if_pos (operandFits_iff.mpr h)]
    cases ho : Op.ofByte? (opField req) with
    | none => simp
    | some o => cases hc : formatCheck o.format cap req opnd <;> simp [h, hc, eq_comm]
  · rw [if_neg (mt operandFits_iff.mp h)]
    simp [h]

/-- A sequence that fits leaves the decision to the checks of R78. -/
theorem decode_of_fits {cap : Fin 65536} {req : Word} {opnd : List Byte} (h : opnd.length ≤ cap.val) :
    decode cap req opnd = decodeFitting cap req opnd := by
  rw [decode, if_pos (operandFits_iff.mpr h)]

/-- A sequence longer than the buffer is refused in every format (R32, U8). -/
theorem decode_of_overlong {cap : Fin 65536} {req : Word} {opnd : List Byte} (h : cap.val < opnd.length) :
    decode cap req opnd = .error .overCapacity := by
  rw [decode, if_neg (mt operandFits_iff.mp (Nat.not_le.mpr h))]

/-- A word is its four bytes on the bus, low byte first, put together again (R53). -/
theorem wordOfBus_fields (req : Word) :
    wordOfBus (opField req) (xField req) (dyField req) (dwField req) = req := by
  apply BitVec.eq_of_getLsbD_eq
  intro i hi
  simp only [wordOfBus, opField, xField, dyField, dwField, BitVec.getLsbD_or, getLsbD_place,
    BitVec.getLsbD_extractLsb', hi, decide_true, Bool.true_and]
  rcases (by omega : i < 8 ∨ (8 ≤ i ∧ i < 16) ∨ (16 ≤ i ∧ i < 24) ∨ 24 ≤ i) with h | h | h | h
  · simp [h, show ¬ 8 ≤ i by omega, show ¬ 16 ≤ i by omega, show ¬ 24 ≤ i by omega]
  · simp [show ¬ i < 8 by omega, show 8 ≤ i by omega, show ¬ 16 ≤ i by omega, show ¬ 24 ≤ i by omega,
      show i - 8 < 8 by omega, show 8 + (i - 8) = i by omega]
  · simp [show ¬ i < 8 by omega, show 8 ≤ i by omega, show 16 ≤ i by omega, show ¬ 24 ≤ i by omega,
      show ¬ i - 8 < 8 by omega, show i - 16 < 8 by omega, show 16 + (i - 16) = i by omega]
  · simp [show ¬ i < 8 by omega, show 8 ≤ i by omega, show 16 ≤ i by omega, show 24 ≤ i by omega,
      show ¬ i - 8 < 8 by omega, show ¬ i - 16 < 8 by omega, show i - 24 < 8 by omega,
      show 24 + (i - 24) = i by omega]

/-- A request crosses a byte-wide bus unchanged (R53). -/
theorem requestOfBus_busBytes (req : Word) (opnd : List Byte) :
    requestOfBus (busBytes req ++ opnd) = some ⟨req, opnd⟩ := by
  simp [busBytes, requestOfBus, wordOfBus_fields]

/-- The request that the opcode table's numbering stands for (log 17). -/
theorem requestOfBus_tableBytes (nbits w : Nat) :
    requestOfBus (tableBytes nbits w) = some ⟨BitVec.ofNat 32 (w % 2 ^ nbits),
      List.replicate (announcedOperands (BitVec.ofNat 32 (w % 2 ^ nbits))) 0#8⟩ := by
  rw [tableBytes, requestOfBus_busBytes]

end Sys2Proof
end

