-- ==== Sys2Proof/Laws/KeyFile.lean ====
section
/-! SUPPORT. The key-slot file: what a slot holds after each operation on the file, and all that `SlotPlace` can
answer (R102, R104). -/

namespace Sys2Proof.Machine

/-- Two files with the same slots are the same file. -/
theorem KeyFile.ext_get {a b : KeyFile} (h : ∀ i, a.get i = b.get i) : a = b := by
  have h0 := h 0; have h1 := h 1; have h2 := h 2; have h3 := h 3; have h4 := h 4; have h5 := h 5
  cases a; cases b
  simp only [KeyFile.get] at h0 h1 h2 h3 h4 h5
  simp only [h0, h1, h2, h3, h4, h5]

@[simp] theorem KeyFile.get_set_same (k : KeyFile) (i : Fin 6) (v : Byte) : (k.set i v).get i = v := by
  fin_cases i <;> rfl

theorem KeyFile.get_set_ne (k : KeyFile) {i j : Fin 6} (v : Byte) (h : j ≠ i) : (k.set i v).get j = k.get j := by
  fin_cases i <;> fin_cases j <;> first | rfl | exact absurd rfl h

@[simp] theorem KeyFile.get_clear (u : Byte) (k : KeyFile) (i : Fin 6) :
    (k.clear u).get i = if k.get i = u then 0#8 else k.get i := by
  fin_cases i <;> rfl

@[simp] theorem KeyFile.get_empty (i : Fin 6) : KeyFile.empty.get i = 0#8 := by
  fin_cases i <;> rfl

/-- The slots of the report are the slots of the file. -/
theorem KeyFile.mem_toList {u : Byte} {k : KeyFile} : u ∈ k.toList ↔ ∃ i, k.get i = u := by
  simp only [KeyFile.toList, List.mem_cons, List.not_mem_nil, or_false]
  constructor
  · rintro (h | h | h | h | h | h)
    exacts [⟨0, h.symm⟩, ⟨1, h.symm⟩, ⟨2, h.symm⟩, ⟨3, h.symm⟩, ⟨4, h.symm⟩, ⟨5, h.symm⟩]
  · rintro ⟨i, rfl⟩
    fin_cases i <;> simp [KeyFile.get]

/-- `firstEmpty?` finds the least empty slot (R102). -/
theorem KeyFile.firstEmpty?_eq_some {k : KeyFile} {j : Fin 6} :
    k.firstEmpty? = some j ↔ k.get j = 0#8 ∧ ∀ i < j, k.get i ≠ 0#8 := by
  simp only [KeyFile.firstEmpty?]
  constructor
  · intro h
    split_ifs at h with h0 h1 h2 h3 h4 h5 <;> obtain rfl := Option.some.inj h <;>
      refine ⟨by assumption, fun i hi => ?_⟩ <;> fin_cases i <;>
      first | assumption | exact absurd hi (by decide)
  · rintro ⟨hj, hlt⟩
    have g0 := hlt 0; have g1 := hlt 1; have g2 := hlt 2; have g3 := hlt 3; have g4 := hlt 4
    fin_cases j <;> simp_all [KeyFile.get]

/-- No empty slot is found exactly when every slot is held (R102). -/
theorem KeyFile.firstEmpty?_eq_none {k : KeyFile} : k.firstEmpty? = none ↔ ∀ i, k.get i ≠ 0#8 := by
  simp only [KeyFile.firstEmpty?]
  constructor
  · intro h i
    split_ifs at h with h0 h1 h2 h3 h4 h5
    fin_cases i <;> assumption
  · intro h
    have g0 := h 0; have g1 := h 1; have g2 := h 2; have g3 := h 3; have g4 := h 4; have g5 := h 5
    simp only [KeyFile.get] at g0 g1 g2 g3 g4 g5
    simp only [g0, g1, g2, g3, g4, g5, if_false]

/-- A usage already present leaves the file as it is, full or not (R102). -/
theorem slotPlace_held {u : Byte} {k : KeyFile} (h : ∃ i, k.get i = u) : slotPlace u k = some k := by
  rw [slotPlace, if_pos (KeyFile.mem_toList.mpr h)]

/-- A usage not present goes into the least empty slot (R102). -/
theorem slotPlace_first {u : Byte} {k : KeyFile} {j : Fin 6} (habs : ∀ i, k.get i ≠ u) (hj : k.get j = 0#8)
    (hlt : ∀ i < j, k.get i ≠ 0#8) : slotPlace u k = some (k.set j u) := by
  have hn : u ∉ k.toList := fun h => (KeyFile.mem_toList.mp h).elim habs
  rw [slotPlace, if_neg hn, KeyFile.firstEmpty?_eq_some.mpr ⟨hj, hlt⟩, Option.map_some]

/-- `Full` is the answer exactly when the usage is absent and no slot is empty (R102). -/
theorem slotPlace_eq_none {u : Byte} {k : KeyFile} :
    slotPlace u k = none ↔ (∀ i, k.get i ≠ u) ∧ ∀ i, k.get i ≠ 0#8 := by
  by_cases h : u ∈ k.toList
  · rw [slotPlace, if_pos h]
    obtain ⟨i, hi⟩ := KeyFile.mem_toList.mp h
    exact ⟨fun hn => (nomatch hn), fun hn => absurd hi (hn.1 i)⟩
  · rw [slotPlace, if_neg h, Option.map_eq_none_iff, KeyFile.firstEmpty?_eq_none]
    exact ⟨fun he => ⟨fun i hi => h (KeyFile.mem_toList.mpr ⟨i, hi⟩), he⟩, fun hn => hn.2⟩

/-- All that `SlotPlace` can answer when it places: the file unchanged, the usage being held, or the least empty
slot set (R102). -/
theorem slotPlace_eq_some {u : Byte} {k k' : KeyFile} (h : slotPlace u k = some k') :
    ((∃ i, k.get i = u) ∧ k' = k) ∨
      ∃ j, (∀ i, k.get i ≠ u) ∧ k.get j = 0#8 ∧ (∀ i < j, k.get i ≠ 0#8) ∧ k' = k.set j u := by
  rw [slotPlace] at h
  split_ifs at h with hm
  · exact .inl ⟨KeyFile.mem_toList.mp hm, (Option.some.inj h).symm⟩
  · obtain ⟨j, hj, rfl⟩ := Option.map_eq_some_iff.mp h
    obtain ⟨hj0, hlt⟩ := KeyFile.firstEmpty?_eq_some.mp hj
    exact .inr ⟨j, fun i hi => hm (KeyFile.mem_toList.mpr ⟨i, hi⟩), hj0, hlt, rfl⟩

end Sys2Proof.Machine
end

