-- ==== Sys2Proof/Laws/State.lean ====
section
/-! SUPPORT. One lemma per field of State per named update, true by rfl, so that no later proof unfolds a record
update. -/

namespace Sys2Proof.Machine

/-! ### sendBytes -/

@[simp] theorem sendBytes_mode (bytes : List Byte) (s : State) : (sendBytes bytes s).mode = s.mode := rfl
@[simp] theorem sendBytes_mod (bytes : List Byte) (s : State) : (sendBytes bytes s).mod = s.mod := rfl
@[simp] theorem sendBytes_keys (bytes : List Byte) (s : State) : (sendBytes bytes s).keys = s.keys := rfl
@[simp] theorem sendBytes_btn (bytes : List Byte) (s : State) : (sendBytes bytes s).btn = s.btn := rfl
@[simp] theorem sendBytes_asciiMap (bytes : List Byte) (s : State) : (sendBytes bytes s).asciiMap = s.asciiMap := rfl
@[simp] theorem sendBytes_resp (bytes : List Byte) (s : State) : (sendBytes bytes s).resp = s.resp := rfl
@[simp] theorem sendBytes_phase (bytes : List Byte) (s : State) : (sendBytes bytes s).phase = s.phase := rfl
@[simp] theorem sendBytes_fault (bytes : List Byte) (s : State) : (sendBytes bytes s).fault = s.fault := rfl
@[simp] theorem sendBytes_req (bytes : List Byte) (s : State) : (sendBytes bytes s).req = s.req := rfl
@[simp] theorem sendBytes_opnd (bytes : List Byte) (s : State) : (sendBytes bytes s).opnd = s.opnd := rfl
@[simp] theorem sendBytes_reqValid (bytes : List Byte) (s : State) : (sendBytes bytes s).reqValid = s.reqValid := rfl
@[simp] theorem sendBytes_resStatus (bytes : List Byte) (s : State) : (sendBytes bytes s).resStatus = s.resStatus := rfl
@[simp] theorem sendBytes_resFlag (bytes : List Byte) (s : State) : (sendBytes bytes s).resFlag = s.resFlag := rfl
@[simp] theorem sendBytes_resLine (bytes : List Byte) (s : State) : (sendBytes bytes s).resLine = s.resLine := rfl
@[simp] theorem sendBytes_tx (bytes : List Byte) (s : State) : (sendBytes bytes s).tx = s.tx ++ bytes := rfl
@[simp] theorem sendBytes_txTaken (bytes : List Byte) (s : State) : (sendBytes bytes s).txTaken = s.txTaken := rfl
@[simp] theorem sendBytes_rx (bytes : List Byte) (s : State) : (sendBytes bytes s).rx = s.rx := rfl
@[simp] theorem sendBytes_radioMode (bytes : List Byte) (s : State) : (sendBytes bytes s).radioMode = s.radioMode := rfl
@[simp] theorem sendBytes_params (bytes : List Byte) (s : State) : (sendBytes bytes s).params = s.params := rfl
@[simp] theorem sendBytes_turns (bytes : List Byte) (s : State) : (sendBytes bytes s).turns = s.turns := rfl

/-! ### recordFault -/

@[simp] theorem recordFault_mode (kind : FaultKind) (s : State) : (recordFault kind s).mode = s.mode := rfl
@[simp] theorem recordFault_mod (kind : FaultKind) (s : State) : (recordFault kind s).mod = s.mod := rfl
@[simp] theorem recordFault_keys (kind : FaultKind) (s : State) : (recordFault kind s).keys = s.keys := rfl
@[simp] theorem recordFault_btn (kind : FaultKind) (s : State) : (recordFault kind s).btn = s.btn := rfl
@[simp] theorem recordFault_asciiMap (kind : FaultKind) (s : State) : (recordFault kind s).asciiMap = s.asciiMap := rfl
@[simp] theorem recordFault_resp (kind : FaultKind) (s : State) : (recordFault kind s).resp = s.resp := rfl
@[simp] theorem recordFault_phase (kind : FaultKind) (s : State) : (recordFault kind s).phase = s.phase := rfl
@[simp] theorem recordFault_fault (kind : FaultKind) (s : State) : (recordFault kind s).fault = s.fault ||| kind.bit := rfl
@[simp] theorem recordFault_req (kind : FaultKind) (s : State) : (recordFault kind s).req = s.req := rfl
@[simp] theorem recordFault_opnd (kind : FaultKind) (s : State) : (recordFault kind s).opnd = s.opnd := rfl
@[simp] theorem recordFault_reqValid (kind : FaultKind) (s : State) : (recordFault kind s).reqValid = s.reqValid := rfl
@[simp] theorem recordFault_resStatus (kind : FaultKind) (s : State) : (recordFault kind s).resStatus = s.resStatus := rfl
@[simp] theorem recordFault_resFlag (kind : FaultKind) (s : State) : (recordFault kind s).resFlag = s.resFlag := rfl
@[simp] theorem recordFault_resLine (kind : FaultKind) (s : State) : (recordFault kind s).resLine = s.resLine := rfl
@[simp] theorem recordFault_tx (kind : FaultKind) (s : State) : (recordFault kind s).tx = s.tx := rfl
@[simp] theorem recordFault_txTaken (kind : FaultKind) (s : State) : (recordFault kind s).txTaken = s.txTaken := rfl
@[simp] theorem recordFault_rx (kind : FaultKind) (s : State) : (recordFault kind s).rx = s.rx := rfl
@[simp] theorem recordFault_radioMode (kind : FaultKind) (s : State) : (recordFault kind s).radioMode = s.radioMode := rfl
@[simp] theorem recordFault_params (kind : FaultKind) (s : State) : (recordFault kind s).params = s.params := rfl
@[simp] theorem recordFault_turns (kind : FaultKind) (s : State) : (recordFault kind s).turns = s.turns := rfl

/-! ### complete -/

@[simp] theorem complete_mode (st : Status) (flag : Bool) (line : List Byte) (s : State) : (complete st flag line s).mode = s.mode := rfl
@[simp] theorem complete_mod (st : Status) (flag : Bool) (line : List Byte) (s : State) : (complete st flag line s).mod = s.mod := rfl
@[simp] theorem complete_keys (st : Status) (flag : Bool) (line : List Byte) (s : State) : (complete st flag line s).keys = s.keys := rfl
@[simp] theorem complete_btn (st : Status) (flag : Bool) (line : List Byte) (s : State) : (complete st flag line s).btn = s.btn := rfl
@[simp] theorem complete_asciiMap (st : Status) (flag : Bool) (line : List Byte) (s : State) : (complete st flag line s).asciiMap = s.asciiMap := rfl
@[simp] theorem complete_resp (st : Status) (flag : Bool) (line : List Byte) (s : State) : (complete st flag line s).resp = s.resp := rfl
@[simp] theorem complete_phase (st : Status) (flag : Bool) (line : List Byte) (s : State) : (complete st flag line s).phase = .idle := rfl
@[simp] theorem complete_fault (st : Status) (flag : Bool) (line : List Byte) (s : State) : (complete st flag line s).fault = s.fault := rfl
@[simp] theorem complete_req (st : Status) (flag : Bool) (line : List Byte) (s : State) : (complete st flag line s).req = s.req := rfl
@[simp] theorem complete_opnd (st : Status) (flag : Bool) (line : List Byte) (s : State) : (complete st flag line s).opnd = s.opnd := rfl
@[simp] theorem complete_reqValid (st : Status) (flag : Bool) (line : List Byte) (s : State) : (complete st flag line s).reqValid = s.reqValid := rfl
@[simp] theorem complete_resStatus (st : Status) (flag : Bool) (line : List Byte) (s : State) : (complete st flag line s).resStatus = st.code := rfl
@[simp] theorem complete_resFlag (st : Status) (flag : Bool) (line : List Byte) (s : State) : (complete st flag line s).resFlag = flag := rfl
@[simp] theorem complete_resLine (st : Status) (flag : Bool) (line : List Byte) (s : State) : (complete st flag line s).resLine = line := rfl
@[simp] theorem complete_tx (st : Status) (flag : Bool) (line : List Byte) (s : State) : (complete st flag line s).tx = s.tx := rfl
@[simp] theorem complete_txTaken (st : Status) (flag : Bool) (line : List Byte) (s : State) : (complete st flag line s).txTaken = s.txTaken := rfl
@[simp] theorem complete_rx (st : Status) (flag : Bool) (line : List Byte) (s : State) : (complete st flag line s).rx = s.rx := rfl
@[simp] theorem complete_radioMode (st : Status) (flag : Bool) (line : List Byte) (s : State) : (complete st flag line s).radioMode = s.radioMode := rfl
@[simp] theorem complete_params (st : Status) (flag : Bool) (line : List Byte) (s : State) : (complete st flag line s).params = s.params := rfl
@[simp] theorem complete_turns (st : Status) (flag : Bool) (line : List Byte) (s : State) : (complete st flag line s).turns = s.turns := rfl

/-! ### raise -/

@[simp] theorem raise_mode (st : Status) (s : State) : (raise st s).mode = s.mode := rfl
@[simp] theorem raise_mod (st : Status) (s : State) : (raise st s).mod = s.mod := rfl
@[simp] theorem raise_keys (st : Status) (s : State) : (raise st s).keys = s.keys := rfl
@[simp] theorem raise_btn (st : Status) (s : State) : (raise st s).btn = s.btn := rfl
@[simp] theorem raise_asciiMap (st : Status) (s : State) : (raise st s).asciiMap = s.asciiMap := rfl
@[simp] theorem raise_resp (st : Status) (s : State) : (raise st s).resp = s.resp := rfl
@[simp] theorem raise_phase (st : Status) (s : State) : (raise st s).phase = .idle := rfl
@[simp] theorem raise_fault (st : Status) (s : State) : (raise st s).fault = s.fault := rfl
@[simp] theorem raise_req (st : Status) (s : State) : (raise st s).req = s.req := rfl
@[simp] theorem raise_opnd (st : Status) (s : State) : (raise st s).opnd = s.opnd := rfl
@[simp] theorem raise_reqValid (st : Status) (s : State) : (raise st s).reqValid = s.reqValid := rfl
@[simp] theorem raise_resStatus (st : Status) (s : State) : (raise st s).resStatus = st.code := rfl
@[simp] theorem raise_resFlag (st : Status) (s : State) : (raise st s).resFlag = false := rfl
@[simp] theorem raise_resLine (st : Status) (s : State) : (raise st s).resLine = s.resLine := rfl
@[simp] theorem raise_tx (st : Status) (s : State) : (raise st s).tx = s.tx := rfl
@[simp] theorem raise_txTaken (st : Status) (s : State) : (raise st s).txTaken = s.txTaken := rfl
@[simp] theorem raise_rx (st : Status) (s : State) : (raise st s).rx = s.rx := rfl
@[simp] theorem raise_radioMode (st : Status) (s : State) : (raise st s).radioMode = s.radioMode := rfl
@[simp] theorem raise_params (st : Status) (s : State) : (raise st s).params = s.params := rfl
@[simp] theorem raise_turns (st : Status) (s : State) : (raise st s).turns = s.turns := rfl

/-! ### halt -/

@[simp] theorem halt_mode (s : State) : (halt s).mode = s.mode := rfl
@[simp] theorem halt_mod (s : State) : (halt s).mod = s.mod := rfl
@[simp] theorem halt_keys (s : State) : (halt s).keys = s.keys := rfl
@[simp] theorem halt_btn (s : State) : (halt s).btn = s.btn := rfl
@[simp] theorem halt_asciiMap (s : State) : (halt s).asciiMap = s.asciiMap := rfl
@[simp] theorem halt_resp (s : State) : (halt s).resp = s.resp := rfl
@[simp] theorem halt_phase (s : State) : (halt s).phase = .halted := rfl
@[simp] theorem halt_fault (s : State) : (halt s).fault = s.fault := rfl
@[simp] theorem halt_req (s : State) : (halt s).req = s.req := rfl
@[simp] theorem halt_opnd (s : State) : (halt s).opnd = s.opnd := rfl
@[simp] theorem halt_reqValid (s : State) : (halt s).reqValid = s.reqValid := rfl
@[simp] theorem halt_resStatus (s : State) : (halt s).resStatus = s.resStatus := rfl
@[simp] theorem halt_resFlag (s : State) : (halt s).resFlag = s.resFlag := rfl
@[simp] theorem halt_resLine (s : State) : (halt s).resLine = s.resLine := rfl
@[simp] theorem halt_tx (s : State) : (halt s).tx = s.tx := rfl
@[simp] theorem halt_txTaken (s : State) : (halt s).txTaken = s.txTaken := rfl
@[simp] theorem halt_rx (s : State) : (halt s).rx = s.rx := rfl
@[simp] theorem halt_radioMode (s : State) : (halt s).radioMode = s.radioMode := rfl
@[simp] theorem halt_params (s : State) : (halt s).params = s.params := rfl
@[simp] theorem halt_turns (s : State) : (halt s).turns = s.turns := rfl

/-! ### startLine -/

@[simp] theorem startLine_mode (k : Exchange) (s : State) : (startLine k s).mode = s.mode := rfl
@[simp] theorem startLine_mod (k : Exchange) (s : State) : (startLine k s).mod = s.mod := rfl
@[simp] theorem startLine_keys (k : Exchange) (s : State) : (startLine k s).keys = s.keys := rfl
@[simp] theorem startLine_btn (k : Exchange) (s : State) : (startLine k s).btn = s.btn := rfl
@[simp] theorem startLine_asciiMap (k : Exchange) (s : State) : (startLine k s).asciiMap = s.asciiMap := rfl
@[simp] theorem startLine_resp (k : Exchange) (s : State) : (startLine k s).resp = [] := rfl
@[simp] theorem startLine_phase (k : Exchange) (s : State) : (startLine k s).phase = .readLine k := rfl
@[simp] theorem startLine_fault (k : Exchange) (s : State) : (startLine k s).fault = s.fault := rfl
@[simp] theorem startLine_req (k : Exchange) (s : State) : (startLine k s).req = s.req := rfl
@[simp] theorem startLine_opnd (k : Exchange) (s : State) : (startLine k s).opnd = s.opnd := rfl
@[simp] theorem startLine_reqValid (k : Exchange) (s : State) : (startLine k s).reqValid = s.reqValid := rfl
@[simp] theorem startLine_resStatus (k : Exchange) (s : State) : (startLine k s).resStatus = s.resStatus := rfl
@[simp] theorem startLine_resFlag (k : Exchange) (s : State) : (startLine k s).resFlag = s.resFlag := rfl
@[simp] theorem startLine_resLine (k : Exchange) (s : State) : (startLine k s).resLine = s.resLine := rfl
@[simp] theorem startLine_tx (k : Exchange) (s : State) : (startLine k s).tx = s.tx := rfl
@[simp] theorem startLine_txTaken (k : Exchange) (s : State) : (startLine k s).txTaken = s.txTaken := rfl
@[simp] theorem startLine_rx (k : Exchange) (s : State) : (startLine k s).rx = s.rx := rfl
@[simp] theorem startLine_radioMode (k : Exchange) (s : State) : (startLine k s).radioMode = s.radioMode := rfl
@[simp] theorem startLine_params (k : Exchange) (s : State) : (startLine k s).params = s.params := rfl
@[simp] theorem startLine_turns (k : Exchange) (s : State) : (startLine k s).turns = s.turns := rfl

/-! ### discardResp -/

@[simp] theorem discardResp_mode (s : State) : (discardResp s).mode = s.mode := rfl
@[simp] theorem discardResp_mod (s : State) : (discardResp s).mod = s.mod := rfl
@[simp] theorem discardResp_keys (s : State) : (discardResp s).keys = s.keys := rfl
@[simp] theorem discardResp_btn (s : State) : (discardResp s).btn = s.btn := rfl
@[simp] theorem discardResp_asciiMap (s : State) : (discardResp s).asciiMap = s.asciiMap := rfl
@[simp] theorem discardResp_resp (s : State) : (discardResp s).resp = [] := rfl
@[simp] theorem discardResp_phase (s : State) : (discardResp s).phase = s.phase := rfl
@[simp] theorem discardResp_fault (s : State) : (discardResp s).fault = s.fault := rfl
@[simp] theorem discardResp_req (s : State) : (discardResp s).req = s.req := rfl
@[simp] theorem discardResp_opnd (s : State) : (discardResp s).opnd = s.opnd := rfl
@[simp] theorem discardResp_reqValid (s : State) : (discardResp s).reqValid = s.reqValid := rfl
@[simp] theorem discardResp_resStatus (s : State) : (discardResp s).resStatus = s.resStatus := rfl
@[simp] theorem discardResp_resFlag (s : State) : (discardResp s).resFlag = s.resFlag := rfl
@[simp] theorem discardResp_resLine (s : State) : (discardResp s).resLine = s.resLine := rfl
@[simp] theorem discardResp_tx (s : State) : (discardResp s).tx = s.tx := rfl
@[simp] theorem discardResp_txTaken (s : State) : (discardResp s).txTaken = s.txTaken := rfl
@[simp] theorem discardResp_rx (s : State) : (discardResp s).rx = s.rx := rfl
@[simp] theorem discardResp_radioMode (s : State) : (discardResp s).radioMode = s.radioMode := rfl
@[simp] theorem discardResp_params (s : State) : (discardResp s).params = s.params := rfl
@[simp] theorem discardResp_turns (s : State) : (discardResp s).turns = s.turns := rfl

/-! ### appendResp -/

@[simp] theorem appendResp_mode (b : Byte) (s : State) : (appendResp b s).mode = s.mode := rfl
@[simp] theorem appendResp_mod (b : Byte) (s : State) : (appendResp b s).mod = s.mod := rfl
@[simp] theorem appendResp_keys (b : Byte) (s : State) : (appendResp b s).keys = s.keys := rfl
@[simp] theorem appendResp_btn (b : Byte) (s : State) : (appendResp b s).btn = s.btn := rfl
@[simp] theorem appendResp_asciiMap (b : Byte) (s : State) : (appendResp b s).asciiMap = s.asciiMap := rfl
@[simp] theorem appendResp_resp (b : Byte) (s : State) : (appendResp b s).resp = s.resp ++ [b] := rfl
@[simp] theorem appendResp_phase (b : Byte) (s : State) : (appendResp b s).phase = s.phase := rfl
@[simp] theorem appendResp_fault (b : Byte) (s : State) : (appendResp b s).fault = s.fault := rfl
@[simp] theorem appendResp_req (b : Byte) (s : State) : (appendResp b s).req = s.req := rfl
@[simp] theorem appendResp_opnd (b : Byte) (s : State) : (appendResp b s).opnd = s.opnd := rfl
@[simp] theorem appendResp_reqValid (b : Byte) (s : State) : (appendResp b s).reqValid = s.reqValid := rfl
@[simp] theorem appendResp_resStatus (b : Byte) (s : State) : (appendResp b s).resStatus = s.resStatus := rfl
@[simp] theorem appendResp_resFlag (b : Byte) (s : State) : (appendResp b s).resFlag = s.resFlag := rfl
@[simp] theorem appendResp_resLine (b : Byte) (s : State) : (appendResp b s).resLine = s.resLine := rfl
@[simp] theorem appendResp_tx (b : Byte) (s : State) : (appendResp b s).tx = s.tx := rfl
@[simp] theorem appendResp_txTaken (b : Byte) (s : State) : (appendResp b s).txTaken = s.txTaken := rfl
@[simp] theorem appendResp_rx (b : Byte) (s : State) : (appendResp b s).rx = s.rx := rfl
@[simp] theorem appendResp_radioMode (b : Byte) (s : State) : (appendResp b s).radioMode = s.radioMode := rfl
@[simp] theorem appendResp_params (b : Byte) (s : State) : (appendResp b s).params = s.params := rfl
@[simp] theorem appendResp_turns (b : Byte) (s : State) : (appendResp b s).turns = s.turns := rfl

/-! ### setButtons -/

@[simp] theorem setButtons_mode (n : Byte) (s : State) : (setButtons n s).mode = s.mode := rfl
@[simp] theorem setButtons_mod (n : Byte) (s : State) : (setButtons n s).mod = s.mod := rfl
@[simp] theorem setButtons_keys (n : Byte) (s : State) : (setButtons n s).keys = s.keys := rfl
@[simp] theorem setButtons_btn (n : Byte) (s : State) : (setButtons n s).btn = n := rfl
@[simp] theorem setButtons_asciiMap (n : Byte) (s : State) : (setButtons n s).asciiMap = s.asciiMap := rfl
@[simp] theorem setButtons_resp (n : Byte) (s : State) : (setButtons n s).resp = s.resp := rfl
@[simp] theorem setButtons_phase (n : Byte) (s : State) : (setButtons n s).phase = s.phase := rfl
@[simp] theorem setButtons_fault (n : Byte) (s : State) : (setButtons n s).fault = s.fault := rfl
@[simp] theorem setButtons_req (n : Byte) (s : State) : (setButtons n s).req = s.req := rfl
@[simp] theorem setButtons_opnd (n : Byte) (s : State) : (setButtons n s).opnd = s.opnd := rfl
@[simp] theorem setButtons_reqValid (n : Byte) (s : State) : (setButtons n s).reqValid = s.reqValid := rfl
@[simp] theorem setButtons_resStatus (n : Byte) (s : State) : (setButtons n s).resStatus = s.resStatus := rfl
@[simp] theorem setButtons_resFlag (n : Byte) (s : State) : (setButtons n s).resFlag = s.resFlag := rfl
@[simp] theorem setButtons_resLine (n : Byte) (s : State) : (setButtons n s).resLine = s.resLine := rfl
@[simp] theorem setButtons_tx (n : Byte) (s : State) : (setButtons n s).tx = s.tx := rfl
@[simp] theorem setButtons_txTaken (n : Byte) (s : State) : (setButtons n s).txTaken = s.txTaken := rfl
@[simp] theorem setButtons_rx (n : Byte) (s : State) : (setButtons n s).rx = s.rx := rfl
@[simp] theorem setButtons_radioMode (n : Byte) (s : State) : (setButtons n s).radioMode = s.radioMode := rfl
@[simp] theorem setButtons_params (n : Byte) (s : State) : (setButtons n s).params = s.params := rfl
@[simp] theorem setButtons_turns (n : Byte) (s : State) : (setButtons n s).turns = s.turns := rfl

/-! ### peerSend -/

@[simp] theorem peerSend_mode (b : Byte) (s : State) : (peerSend b s).mode = s.mode := rfl
@[simp] theorem peerSend_mod (b : Byte) (s : State) : (peerSend b s).mod = s.mod := rfl
@[simp] theorem peerSend_keys (b : Byte) (s : State) : (peerSend b s).keys = s.keys := rfl
@[simp] theorem peerSend_btn (b : Byte) (s : State) : (peerSend b s).btn = s.btn := rfl
@[simp] theorem peerSend_asciiMap (b : Byte) (s : State) : (peerSend b s).asciiMap = s.asciiMap := rfl
@[simp] theorem peerSend_resp (b : Byte) (s : State) : (peerSend b s).resp = s.resp := rfl
@[simp] theorem peerSend_phase (b : Byte) (s : State) : (peerSend b s).phase = s.phase := rfl
@[simp] theorem peerSend_fault (b : Byte) (s : State) : (peerSend b s).fault = s.fault := rfl
@[simp] theorem peerSend_req (b : Byte) (s : State) : (peerSend b s).req = s.req := rfl
@[simp] theorem peerSend_opnd (b : Byte) (s : State) : (peerSend b s).opnd = s.opnd := rfl
@[simp] theorem peerSend_reqValid (b : Byte) (s : State) : (peerSend b s).reqValid = s.reqValid := rfl
@[simp] theorem peerSend_resStatus (b : Byte) (s : State) : (peerSend b s).resStatus = s.resStatus := rfl
@[simp] theorem peerSend_resFlag (b : Byte) (s : State) : (peerSend b s).resFlag = s.resFlag := rfl
@[simp] theorem peerSend_resLine (b : Byte) (s : State) : (peerSend b s).resLine = s.resLine := rfl
@[simp] theorem peerSend_tx (b : Byte) (s : State) : (peerSend b s).tx = s.tx := rfl
@[simp] theorem peerSend_txTaken (b : Byte) (s : State) : (peerSend b s).txTaken = s.txTaken := rfl
@[simp] theorem peerSend_rx (b : Byte) (s : State) : (peerSend b s).rx = s.rx ++ [b] := rfl
@[simp] theorem peerSend_radioMode (b : Byte) (s : State) : (peerSend b s).radioMode = s.radioMode := rfl
@[simp] theorem peerSend_params (b : Byte) (s : State) : (peerSend b s).params = s.params := rfl
@[simp] theorem peerSend_turns (b : Byte) (s : State) : (peerSend b s).turns = s.turns := rfl

/-! ### peerMode -/

@[simp] theorem peerMode_mode (m : RadioMode) (s : State) : (peerMode m s).mode = s.mode := rfl
@[simp] theorem peerMode_mod (m : RadioMode) (s : State) : (peerMode m s).mod = s.mod := rfl
@[simp] theorem peerMode_keys (m : RadioMode) (s : State) : (peerMode m s).keys = s.keys := rfl
@[simp] theorem peerMode_btn (m : RadioMode) (s : State) : (peerMode m s).btn = s.btn := rfl
@[simp] theorem peerMode_asciiMap (m : RadioMode) (s : State) : (peerMode m s).asciiMap = s.asciiMap := rfl
@[simp] theorem peerMode_resp (m : RadioMode) (s : State) : (peerMode m s).resp = s.resp := rfl
@[simp] theorem peerMode_phase (m : RadioMode) (s : State) : (peerMode m s).phase = s.phase := rfl
@[simp] theorem peerMode_fault (m : RadioMode) (s : State) : (peerMode m s).fault = s.fault := rfl
@[simp] theorem peerMode_req (m : RadioMode) (s : State) : (peerMode m s).req = s.req := rfl
@[simp] theorem peerMode_opnd (m : RadioMode) (s : State) : (peerMode m s).opnd = s.opnd := rfl
@[simp] theorem peerMode_reqValid (m : RadioMode) (s : State) : (peerMode m s).reqValid = s.reqValid := rfl
@[simp] theorem peerMode_resStatus (m : RadioMode) (s : State) : (peerMode m s).resStatus = s.resStatus := rfl
@[simp] theorem peerMode_resFlag (m : RadioMode) (s : State) : (peerMode m s).resFlag = s.resFlag := rfl
@[simp] theorem peerMode_resLine (m : RadioMode) (s : State) : (peerMode m s).resLine = s.resLine := rfl
@[simp] theorem peerMode_tx (m : RadioMode) (s : State) : (peerMode m s).tx = s.tx := rfl
@[simp] theorem peerMode_txTaken (m : RadioMode) (s : State) : (peerMode m s).txTaken = s.txTaken := rfl
@[simp] theorem peerMode_rx (m : RadioMode) (s : State) : (peerMode m s).rx = s.rx := rfl
@[simp] theorem peerMode_radioMode (m : RadioMode) (s : State) : (peerMode m s).radioMode = m := rfl
@[simp] theorem peerMode_params (m : RadioMode) (s : State) : (peerMode m s).params = s.params := rfl
@[simp] theorem peerMode_turns (m : RadioMode) (s : State) : (peerMode m s).turns = s.turns := rfl

/-! ### applyReset -/

@[simp] theorem applyReset_mode (s : State) : (applyReset s).mode = .data := rfl
@[simp] theorem applyReset_mod (s : State) : (applyReset s).mod = 0#8 := rfl
@[simp] theorem applyReset_keys (s : State) : (applyReset s).keys = KeyFile.empty := rfl
@[simp] theorem applyReset_btn (s : State) : (applyReset s).btn = 0#8 := rfl
@[simp] theorem applyReset_asciiMap (s : State) : (applyReset s).asciiMap = s.asciiMap := rfl
@[simp] theorem applyReset_resp (s : State) : (applyReset s).resp = [] := rfl
@[simp] theorem applyReset_phase (s : State) : (applyReset s).phase = .idle := rfl
@[simp] theorem applyReset_fault (s : State) : (applyReset s).fault = 0#3 := rfl
@[simp] theorem applyReset_req (s : State) : (applyReset s).req = 0#32 := rfl
@[simp] theorem applyReset_opnd (s : State) : (applyReset s).opnd = [] := rfl
@[simp] theorem applyReset_reqValid (s : State) : (applyReset s).reqValid = false := rfl
@[simp] theorem applyReset_resStatus (s : State) : (applyReset s).resStatus = 0#8 := rfl
@[simp] theorem applyReset_resFlag (s : State) : (applyReset s).resFlag = false := rfl
@[simp] theorem applyReset_resLine (s : State) : (applyReset s).resLine = [] := rfl
@[simp] theorem applyReset_tx (s : State) : (applyReset s).tx = s.tx := rfl
@[simp] theorem applyReset_txTaken (s : State) : (applyReset s).txTaken = s.txTaken := rfl
@[simp] theorem applyReset_rx (s : State) : (applyReset s).rx = s.rx := rfl
@[simp] theorem applyReset_radioMode (s : State) : (applyReset s).radioMode = s.radioMode := rfl
@[simp] theorem applyReset_params (s : State) : (applyReset s).params = s.params := rfl
@[simp] theorem applyReset_turns (s : State) : (applyReset s).turns = s.turns := rfl

/-! ### presentRequest -/

@[simp] theorem presentRequest_mode (r : Request) (s : State) : (presentRequest r s).mode = s.mode := rfl
@[simp] theorem presentRequest_mod (r : Request) (s : State) : (presentRequest r s).mod = s.mod := rfl
@[simp] theorem presentRequest_keys (r : Request) (s : State) : (presentRequest r s).keys = s.keys := rfl
@[simp] theorem presentRequest_btn (r : Request) (s : State) : (presentRequest r s).btn = s.btn := rfl
@[simp] theorem presentRequest_asciiMap (r : Request) (s : State) : (presentRequest r s).asciiMap = s.asciiMap := rfl
@[simp] theorem presentRequest_resp (r : Request) (s : State) : (presentRequest r s).resp = s.resp := rfl
@[simp] theorem presentRequest_phase (r : Request) (s : State) : (presentRequest r s).phase = .idle := rfl
@[simp] theorem presentRequest_fault (r : Request) (s : State) : (presentRequest r s).fault = s.fault := rfl
@[simp] theorem presentRequest_req (r : Request) (s : State) : (presentRequest r s).req = r.word := rfl
@[simp] theorem presentRequest_opnd (r : Request) (s : State) : (presentRequest r s).opnd = r.opnd := rfl
@[simp] theorem presentRequest_reqValid (r : Request) (s : State) : (presentRequest r s).reqValid = true := rfl
@[simp] theorem presentRequest_resStatus (r : Request) (s : State) : (presentRequest r s).resStatus = s.resStatus := rfl
@[simp] theorem presentRequest_resFlag (r : Request) (s : State) : (presentRequest r s).resFlag = s.resFlag := rfl
@[simp] theorem presentRequest_resLine (r : Request) (s : State) : (presentRequest r s).resLine = s.resLine := rfl
@[simp] theorem presentRequest_tx (r : Request) (s : State) : (presentRequest r s).tx = s.tx := rfl
@[simp] theorem presentRequest_txTaken (r : Request) (s : State) : (presentRequest r s).txTaken = s.txTaken := rfl
@[simp] theorem presentRequest_rx (r : Request) (s : State) : (presentRequest r s).rx = s.rx := rfl
@[simp] theorem presentRequest_radioMode (r : Request) (s : State) : (presentRequest r s).radioMode = s.radioMode := rfl
@[simp] theorem presentRequest_params (r : Request) (s : State) : (presentRequest r s).params = s.params := rfl
@[simp] theorem presentRequest_turns (r : Request) (s : State) : (presentRequest r s).turns = .block :: s.turns := rfl

end Sys2Proof.Machine
end

