-- ==== Sys2Proof/Laws/Ops.lean ====
section
/-! SUPPORT. For each shared operation, once, everything it does: the composite sends as one record update, the
classification of a key code, and the outcome of a line. -/

namespace Sys2Proof.Machine

/-! ### The sends (R151, R180, R101, R130, R204) -/

/-- The fault record after a send whose contract asks for mode `m` (R204). -/
def contractFault (m : RadioMode) (s : State) : BitVec 3 := if s.mode = m then s.fault else s.fault ||| 0b001#3

/-- The contract check changes the fault record and nothing else (R204). -/
theorem requireMode_eq (m : RadioMode) (s : State) : requireMode m s = { s with fault := contractFault m s } := by
  by_cases h : s.mode = m
  · rw [requireMode, contractFault, if_pos h, if_pos h]
  · rw [requireMode, contractFault, if_neg h, if_neg h]; rfl

/-- A framed send appends the frame to TX, records the contract's fault, and changes nothing else (R151). -/
theorem sendFramed_eq (p : List Byte) (s : State) :
    sendFramed p s = { s with tx := s.tx ++ frame p, fault := contractFault .data s } := by
  rw [sendFramed, requireMode_eq]; rfl

theorem facadeSend_eq (id : Byte) (d : List Byte) (s : State) :
    facadeSend id d s = { s with tx := s.tx ++ frame (id :: d), fault := contractFault .data s } := by
  rw [facadeSend, sendFramed_eq]

/-- One keyboard report: an 11-byte frame of the current `MOD` and `KEYS` (R84, R101). -/
theorem kbSend_eq (s : State) :
    kbSend s = { s with
      tx := s.tx ++ [0xFD#8, 0x09#8, 0x01#8, s.mod, 0x00#8,
        s.keys.k0, s.keys.k1, s.keys.k2, s.keys.k3, s.keys.k4, s.keys.k5],
      fault := contractFault .data s } := by
  rw [kbSend, facadeSend_eq]; rfl

/-- One mouse report: a 7-byte frame of the current `BTN` (R85, R130). -/
theorem msSend_eq (dx dy dw : Byte) (s : State) :
    msSend dx dy dw s = { s with
      tx := s.tx ++ [0xFD#8, 0x05#8, 0x02#8, s.btn, dx, dy, dw], fault := contractFault .data s } := by
  rw [msSend, facadeSend_eq]; rfl

/-- The contract's fault is recorded once, however often it is checked (R202). -/
theorem contractFault_again (m : RadioMode) {s t : State} (hm : t.mode = s.mode) (hf : t.fault = contractFault m s) :
    contractFault m t = contractFault m s := by
  by_cases h : s.mode = m
  · rw [contractFault, hm, if_pos h, hf]
  · rw [contractFault, hm, if_neg h, hf, contractFault, if_neg h, BitVec.or_assoc]; rfl

/-! ### The classification of a key code (R100) -/

/-- A code of the high range is a non-printing key of usage `code - NP_BASE` (R100). -/
theorem translate_nonPrint (m : Vector AsciiEntry 128) {code : Byte} (h : 136 ≤ code.toNat) :
    translate m code = .nonPrint (code - 136#8) := by
  rw [translate, if_pos (show Config.npBase.toNat ≤ code.toNat from h)]; rfl

/-- A code of the modifier range is its modifier bit (R9, R100). -/
theorem translate_modifier (m : Vector AsciiEntry 128) {code : Byte} (h1 : 128 ≤ code.toNat) (h2 : code.toNat < 136) :
    translate m code = .modifier (1#8 <<< (code - 128#8).toNat) := by
  rw [translate, if_neg (show ¬ Config.npBase.toNat ≤ code.toNat from Nat.not_le.mpr h2),
    if_pos (show Config.modBase.toNat ≤ code.toNat from h1)]
  rfl

/-- An ASCII code is what its entry says, usage 0 being unmapped (R26, R100). -/
theorem translate_ascii (m : Vector AsciiEntry 128) {code : Byte} (h : code.toNat < 128) :
    translate m code =
      if (m[code.toNat]'h).usage = 0#8 then .unmapped else .ascii (m[code.toNat]'h).usage (m[code.toNat]'h).shift := by
  have hidx : (asciiIndex code).toNat = code.toNat := by
    simp only [asciiIndex, BitVec.extractLsb'_toNat, Nat.shiftRight_zero]
    omega
  rw [translate, if_neg (show ¬ Config.npBase.toNat ≤ code.toNat by change ¬ 136 ≤ code.toNat; omega),
    if_neg (show ¬ Config.modBase.toNat ≤ code.toNat by change ¬ 128 ≤ code.toNat; omega)]
  simp only [romRead, hidx]

/-! ### Press and release (R103, R104) -/

/-- Every way the press part can succeed (R103). -/
theorem pressKeys_eq_ok {code : Byte} {s : State} {m : Byte} {k : KeyFile} (h : pressKeys code s = .ok (m, k)) :
    (∃ bit, translate s.asciiMap code = .modifier bit ∧ m = s.mod ||| bit ∧ k = s.keys) ∨
    (∃ u shift, translate s.asciiMap code = .ascii u shift ∧ slotPlace u s.keys = some k ∧
      m = s.mod ||| (if shift then s.params.lshiftMask else 0#8)) ∨
    (∃ u, translate s.asciiMap code = .nonPrint u ∧ slotPlace u s.keys = some k ∧ m = s.mod) := by
  unfold pressKeys at h
  split at h
  · next bit ht => cases h; exact .inl ⟨bit, ht, rfl, rfl⟩
  · cases h
  · next u shift ht =>
    split at h
    · cases h
    · next k' hk => cases h; exact .inr (.inl ⟨u, shift, ht, hk, rfl⟩)
  · next u ht =>
    split at h
    · cases h
    · next k' hk => cases h; exact .inr (.inr ⟨u, ht, hk, rfl⟩)

/-- Every way the press part can fail (R103). -/
theorem pressKeys_eq_error {code : Byte} {s : State} {e : Status} (h : pressKeys code s = .error e) :
    (translate s.asciiMap code = .unmapped ∧ e = .unmappable) ∨
    (∃ u, ((∃ shift, translate s.asciiMap code = .ascii u shift) ∨ translate s.asciiMap code = .nonPrint u) ∧
      slotPlace u s.keys = none ∧ e = .reportFull) := by
  unfold pressKeys at h
  split at h
  · cases h
  · next ht => cases h; exact .inl ⟨ht, rfl⟩
  · next u shift ht =>
    split at h
    · next hk => cases h; exact .inr ⟨u, .inl ⟨shift, ht⟩, hk, rfl⟩
    · cases h
  · next u ht =>
    split at h
    · next hk => cases h; exact .inr ⟨u, .inr ht, hk, rfl⟩
    · cases h

/-- The key file after a press part is the old one or the old one with a usage that was absent in the least empty
slot (R102, R103). -/
theorem pressKeys_keys {code : Byte} {s : State} {m : Byte} {k : KeyFile} (h : pressKeys code s = .ok (m, k)) :
    k = s.keys ∨ ∃ u j, (∀ i, s.keys.get i ≠ u) ∧ s.keys.get j = 0#8 ∧ (∀ i < j, s.keys.get i ≠ 0#8) ∧
      k = s.keys.set j u := by
  rcases pressKeys_eq_ok h with ⟨_, _, _, hk⟩ | ⟨u, _, _, hk, _⟩ | ⟨u, _, hk, _⟩
  · exact .inl hk
  all_goals
    rcases slotPlace_eq_some hk with ⟨_, h'⟩ | ⟨j, h1, h2, h3, h4⟩
    · exact .inl h'
    · exact .inr ⟨u, j, h1, h2, h3, h4⟩

/-- The key file after a release is the old one, or the old one with every slot of one usage zeroed (R104). -/
theorem releaseKeys_keys (code : Byte) (s : State) :
    (releaseKeys code s).2 = s.keys ∨ ∃ u, (releaseKeys code s).2 = s.keys.clear u := by
  unfold releaseKeys
  split
  · exact .inl rfl
  · exact .inl rfl
  · exact .inr ⟨_, rfl⟩
  · exact .inr ⟨_, rfl⟩

/-- The press part looks at `ASCII_MAP`, `MOD`, `KEYS` and the parameters alone (R37). -/
theorem pressKeys_congr (code : Byte) {s t : State} (h1 : s.asciiMap = t.asciiMap) (h2 : s.mod = t.mod)
    (h3 : s.keys = t.keys) (h4 : s.params = t.params) : pressKeys code s = pressKeys code t := by
  simp only [pressKeys, h1, h2, h3, h4]

/-- The release part looks at `ASCII_MAP`, `MOD`, `KEYS` and the parameters alone (R37). -/
theorem releaseKeys_congr (code : Byte) {s t : State} (h1 : s.asciiMap = t.asciiMap) (h2 : s.mod = t.mod)
    (h3 : s.keys = t.keys) (h4 : s.params = t.params) : releaseKeys code s = releaseKeys code t := by
  simp only [releaseKeys, h1, h2, h3, h4]

/-! ### The line read (R152, R154, R156, R205, R207) -/

/-- `MemRead(RX, 1)` gives the oldest byte and takes it off the stream (R13). -/
theorem rxRead_eq_some {s s' : State} {b : Byte} (h : rxRead s = some (b, s')) :
    ∃ rest, s.rx = b :: rest ∧ s' = { s with rx := rest } := by
  unfold rxRead at h
  split at h
  · cases h
  · next c rest hrx => cases h; exact ⟨rest, hrx, rfl⟩

/-- What the end of an entry's line can be (R154). -/
theorem finishEnter_cases (s : State) :
    (s.resp = [0x43#8, 0x4D#8, 0x44#8] ∧
      finishEnter s = { s with resp := [], mode := .command, resStatus := 0x00#8, resFlag := true, resLine := [],
                               phase := .idle }) ∨
    (s.resp ≠ [0x43#8, 0x4D#8, 0x44#8] ∧
      finishEnter s = { s with resp := [], resStatus := 0x03#8, resFlag := false, resLine := [], phase := .idle }) := by
  by_cases h : s.resp = Config.cmdOk
  · exact .inl ⟨h, by rw [finishEnter, if_pos h]; rfl⟩
  · exact .inr ⟨h, by rw [finishEnter, if_neg h]; rfl⟩

/-- The end of a command's line (R156). -/
theorem finishCmd_eq (s : State) :
    finishCmd s = { s with resp := [], resStatus := 0x00#8, resFlag := true, resLine := s.resp, phase := .idle } := rfl

/-- What one consumed byte can do to a line read (R38). -/
theorem takeLineByte_cases (k : Exchange) (b : Byte) (s : State) :
    (b = 0x0D#8 ∧ takeLineByte k b s = finishLine k s) ∨
    (b ≠ 0x0D#8 ∧ s.resp.length = s.params.respCap ∧
      takeLineByte k b s = { s with fault := s.fault ||| 0b010#3, phase := .halted }) ∨
    (b ≠ 0x0D#8 ∧ s.resp.length ≠ s.params.respCap ∧ takeLineByte k b s = { s with resp := s.resp ++ [b] }) := by
  by_cases h : b = Config.cr
  · exact .inl ⟨h, by rw [takeLineByte, if_pos h]⟩
  · by_cases hl : s.resp.length = s.params.respCap
    · exact .inr (.inl ⟨h, hl, by rw [takeLineByte, if_neg h, if_pos hl]; rfl⟩)
    · exact .inr (.inr ⟨h, hl, by rw [takeLineByte, if_neg h, if_neg hl]; rfl⟩)

end Sys2Proof.Machine
end

