-- ==== Sys2Proof/Laws/PerInstr.lean ====
section
/-! SUPPORT. Per-instruction facts, one lemma per constructor of `Instr`. The family `TableRow` says that the word
the encoder writes for an instruction matches that instruction's row of spec/opcode_table.json, whose masks and
matches are transcribed below. -/

namespace Sys2Proof.Laws.TableRow

/-- The row's "mask" in spec/opcode_table.json. -/
def rowMask : Op → Word
  | .kbPress => 0xFFFF00FF#32
  | .kbRelease => 0xFFFF00FF#32
  | .kbReleaseAll => 0xFFFFFFFF#32
  | .kbWrite => 0xFFFF00FF#32
  | .msMove => 0x000000FF#32
  | .msClick => 0xFFFF00FF#32
  | .msPress => 0xFFFF00FF#32
  | .msRelease => 0xFFFF00FF#32
  | .msIsPressed => 0xFFFF00FF#32
  | .rlEnterCmd => 0xFFFFFFFF#32
  | .rlSendCmd => 0x0000FFFF#32
  | .rlExitCmd => 0xFFFFFFFF#32
  | .rlSendReport => 0x0000FFFF#32
  | .rlSendControl => 0x000000FF#32
  | .hidSendReport => 0x000000FF#32
  | .hidGetInterface => 0xFFFFFFFF#32
  | .hidGetDescriptor => 0xFFFFFFFF#32
  | .hidSetup => 0xFFFFFFFF#32

/-- The row's "match" in spec/opcode_table.json. -/
def rowMatch : Op → Word
  | .kbPress => 0x00000001#32
  | .kbRelease => 0x00000002#32
  | .kbReleaseAll => 0x00000003#32
  | .kbWrite => 0x00000004#32
  | .msMove => 0x00000010#32
  | .msClick => 0x00000011#32
  | .msPress => 0x00000012#32
  | .msRelease => 0x00000013#32
  | .msIsPressed => 0x00000014#32
  | .rlEnterCmd => 0x00000020#32
  | .rlSendCmd => 0x00000021#32
  | .rlExitCmd => 0x00000022#32
  | .rlSendReport => 0x00000023#32
  | .rlSendControl => 0x00000024#32
  | .hidSendReport => 0x00000030#32
  | .hidGetInterface => 0x00000031#32
  | .hidGetDescriptor => 0x00000032#32
  | .hidSetup => 0x00000033#32

/-- The word the encoder writes for `i` matches the row of its operation. -/
def Statement (i : Instr) : Prop := (encode i).word &&& rowMask i.op = rowMatch i.op

/-- A placed field under a mask is the field under the mask's bits at that place. -/
theorem place_and (lo : Nat) (v : Byte) (m : Word) : place lo v &&& m = place lo (v &&& (m >>> lo).setWidth 8) := by
  apply BitVec.eq_of_getLsbD_eq
  intro i hi
  by_cases h : lo ≤ i
  · have : lo + (i - lo) = i := by omega
    by_cases h8 : i - lo < 8
    · simp only [BitVec.getLsbD_and, getLsbD_place, hi, h, decide_true, Bool.true_and, BitVec.getLsbD_setWidth,
        BitVec.getLsbD_ushiftRight, this, h8]
    · simp only [BitVec.getLsbD_and, getLsbD_place, hi, h, decide_true, Bool.true_and,
        BitVec.getLsbD_of_ge v (i - lo) (by omega), Bool.false_and]
  · simp only [BitVec.getLsbD_and, getLsbD_place, h, decide_false, Bool.false_and, Bool.and_false]

theorem place16_and (lo : Nat) (v : BitVec 16) (m : Word) (hm : (m >>> lo).setWidth 16 = 0#16) :
    place lo v &&& m = 0#32 := by
  apply BitVec.eq_of_getLsbD_eq
  intro i hi
  rw [BitVec.getLsbD_zero, BitVec.getLsbD_and, getLsbD_place]
  by_cases h : lo ≤ i
  · by_cases h16 : i - lo < 16
    · have hb : ((m >>> lo).setWidth 16).getLsbD (i - lo) = false := by rw [hm, BitVec.getLsbD_zero]
      have : lo + (i - lo) = i := by omega
      simp only [BitVec.getLsbD_setWidth, h16, decide_true, Bool.true_and, BitVec.getLsbD_ushiftRight, this] at hb
      rw [hb, Bool.and_false]
    · rw [BitVec.getLsbD_of_ge v (i - lo) (by omega), Bool.and_false, Bool.and_false, Bool.false_and]
  · simp only [h, decide_false, Bool.false_and, Bool.and_false]

theorem place_zero (lo : Nat) : place lo (0#8 : Byte) = 0#32 := by
  apply BitVec.eq_of_getLsbD_eq
  intro i _
  rw [getLsbD_place, BitVec.getLsbD_zero, BitVec.getLsbD_zero, Bool.and_false, Bool.and_false]

/-- A K or B word keeps its opcode under the rows' mask. -/
theorem wordKB_row (o : Op) (x : Byte) : wordKB o x &&& 0xFFFF00FF#32 = place 0 o.code := by
  rw [wordKB, BitVec.and_or_distrib_right, place_and, place_and,
    show (0xFFFF00FF#32 >>> 8).setWidth 8 = 0#8 from by decide,
    show (0xFFFF00FF#32 >>> 0).setWidth 8 = BitVec.allOnes 8 from by decide,
    BitVec.and_zero, BitVec.and_allOnes, place_zero, BitVec.zero_or]

/-- An M word keeps its opcode under the row's mask. -/
theorem wordM_row (o : Op) (dx dy dw : Byte) : wordM o dx dy dw &&& 0x000000FF#32 = place 0 o.code := by
  rw [wordM, BitVec.and_or_distrib_right, BitVec.and_or_distrib_right, BitVec.and_or_distrib_right,
    place_and, place_and, place_and, place_and,
    show (0x000000FF#32 >>> 24).setWidth 8 = 0#8 from by decide,
    show (0x000000FF#32 >>> 16).setWidth 8 = 0#8 from by decide,
    show (0x000000FF#32 >>> 8).setWidth 8 = 0#8 from by decide,
    show (0x000000FF#32 >>> 0).setWidth 8 = BitVec.allOnes 8 from by decide,
    BitVec.and_zero, BitVec.and_zero, BitVec.and_zero, BitVec.and_allOnes, place_zero, place_zero, place_zero,
    BitVec.zero_or, BitVec.zero_or, BitVec.zero_or]

/-- An S word keeps its opcode under the row's mask. -/
theorem wordS_row (o : Op) (x : Byte) (opnd : List Byte) : wordS o x opnd &&& 0x000000FF#32 = place 0 o.code := by
  rw [wordS, BitVec.and_or_distrib_right, BitVec.and_or_distrib_right, place16_and 16 _ _ (by decide),
    place_and, place_and,
    show (0x000000FF#32 >>> 8).setWidth 8 = 0#8 from by decide,
    show (0x000000FF#32 >>> 0).setWidth 8 = BitVec.allOnes 8 from by decide,
    BitVec.and_zero, BitVec.and_allOnes, place_zero, BitVec.zero_or, BitVec.zero_or]

/-- An S0 word keeps its opcode and its zero `X` under the row's mask. -/
theorem wordS0_row (o : Op) (opnd : List Byte) : wordS o 0#8 opnd &&& 0x0000FFFF#32 = place 0 o.code := by
  rw [wordS, BitVec.and_or_distrib_right, BitVec.and_or_distrib_right, place16_and 16 _ _ (by decide),
    place_and, place_and,
    show (0x0000FFFF#32 >>> 0).setWidth 8 = BitVec.allOnes 8 from by decide,
    BitVec.zero_and, BitVec.and_allOnes, place_zero, BitVec.zero_or, BitVec.zero_or]

theorem kbPress (code : Byte) : Statement (.kbPress code) := wordKB_row .kbPress code
theorem kbRelease (code : Byte) : Statement (.kbRelease code) := wordKB_row .kbRelease code
theorem kbReleaseAll : Statement .kbReleaseAll := by unfold Statement; decide
theorem kbWrite (code : Byte) : Statement (.kbWrite code) := wordKB_row .kbWrite code
theorem msMove (dx dy dw : Byte) : Statement (.msMove dx dy dw) := wordM_row .msMove dx dy dw
theorem msClick (mask : Byte) : Statement (.msClick mask) := wordKB_row .msClick mask
theorem msPress (mask : Byte) : Statement (.msPress mask) := wordKB_row .msPress mask
theorem msRelease (mask : Byte) : Statement (.msRelease mask) := wordKB_row .msRelease mask
theorem msIsPressed (mask : Byte) : Statement (.msIsPressed mask) := wordKB_row .msIsPressed mask
theorem rlEnterCmd : Statement .rlEnterCmd := by unfold Statement; decide
theorem rlSendCmd (text : List Byte) : Statement (.rlSendCmd text) := wordS0_row .rlSendCmd text
theorem rlExitCmd : Statement .rlExitCmd := by unfold Statement; decide
theorem rlSendReport (bytes : List Byte) : Statement (.rlSendReport bytes) := wordS0_row .rlSendReport bytes
theorem rlSendControl (flags : Byte) (bytes : List Byte) : Statement (.rlSendControl flags bytes) :=
  wordS_row .rlSendControl flags bytes
theorem hidSendReport (id : Byte) (data : List Byte) : Statement (.hidSendReport id data) :=
  wordS_row .hidSendReport id data
theorem hidGetInterface : Statement .hidGetInterface := by unfold Statement; decide
theorem hidGetDescriptor : Statement .hidGetDescriptor := by unfold Statement; decide
theorem hidSetup : Statement .hidSetup := by unfold Statement; decide

end Sys2Proof.Laws.TableRow
end

