-- ==== Sys2Proof/Laws/Send.lean ====
section
/-! SUPPORT. One lemma per field of State for each composite send: a send writes TX and may record MODE_VIOLATION,
and leaves every other field (R151, R180, R204). -/

namespace Sys2Proof.Machine

/-! ### requireMode -/

@[simp] theorem requireMode_mode (m : RadioMode) (s : State) : (requireMode m s).mode = s.mode := by rw [requireMode_eq]
@[simp] theorem requireMode_mod (m : RadioMode) (s : State) : (requireMode m s).mod = s.mod := by rw [requireMode_eq]
@[simp] theorem requireMode_keys (m : RadioMode) (s : State) : (requireMode m s).keys = s.keys := by rw [requireMode_eq]
@[simp] theorem requireMode_btn (m : RadioMode) (s : State) : (requireMode m s).btn = s.btn := by rw [requireMode_eq]
@[simp] theorem requireMode_asciiMap (m : RadioMode) (s : State) : (requireMode m s).asciiMap = s.asciiMap := by rw [requireMode_eq]
@[simp] theorem requireMode_resp (m : RadioMode) (s : State) : (requireMode m s).resp = s.resp := by rw [requireMode_eq]
@[simp] theorem requireMode_phase (m : RadioMode) (s : State) : (requireMode m s).phase = s.phase := by rw [requireMode_eq]
@[simp] theorem requireMode_fault (m : RadioMode) (s : State) : (requireMode m s).fault = contractFault m s := by rw [requireMode_eq]
@[simp] theorem requireMode_req (m : RadioMode) (s : State) : (requireMode m s).req = s.req := by rw [requireMode_eq]
@[simp] theorem requireMode_opnd (m : RadioMode) (s : State) : (requireMode m s).opnd = s.opnd := by rw [requireMode_eq]
@[simp] theorem requireMode_reqValid (m : RadioMode) (s : State) : (requireMode m s).reqValid = s.reqValid := by rw [requireMode_eq]
@[simp] theorem requireMode_resStatus (m : RadioMode) (s : State) : (requireMode m s).resStatus = s.resStatus := by rw [requireMode_eq]
@[simp] theorem requireMode_resFlag (m : RadioMode) (s : State) : (requireMode m s).resFlag = s.resFlag := by rw [requireMode_eq]
@[simp] theorem requireMode_resLine (m : RadioMode) (s : State) : (requireMode m s).resLine = s.resLine := by rw [requireMode_eq]
@[simp] theorem requireMode_tx (m : RadioMode) (s : State) : (requireMode m s).tx = s.tx := by rw [requireMode_eq]
@[simp] theorem requireMode_txTaken (m : RadioMode) (s : State) : (requireMode m s).txTaken = s.txTaken := by rw [requireMode_eq]
@[simp] theorem requireMode_rx (m : RadioMode) (s : State) : (requireMode m s).rx = s.rx := by rw [requireMode_eq]
@[simp] theorem requireMode_radioMode (m : RadioMode) (s : State) : (requireMode m s).radioMode = s.radioMode := by rw [requireMode_eq]
@[simp] theorem requireMode_params (m : RadioMode) (s : State) : (requireMode m s).params = s.params := by rw [requireMode_eq]
@[simp] theorem requireMode_turns (m : RadioMode) (s : State) : (requireMode m s).turns = s.turns := by rw [requireMode_eq]

/-! ### sendFramed -/

@[simp] theorem sendFramed_mode (p : List Byte) (s : State) : (sendFramed p s).mode = s.mode := by rw [sendFramed_eq]
@[simp] theorem sendFramed_mod (p : List Byte) (s : State) : (sendFramed p s).mod = s.mod := by rw [sendFramed_eq]
@[simp] theorem sendFramed_keys (p : List Byte) (s : State) : (sendFramed p s).keys = s.keys := by rw [sendFramed_eq]
@[simp] theorem sendFramed_btn (p : List Byte) (s : State) : (sendFramed p s).btn = s.btn := by rw [sendFramed_eq]
@[simp] theorem sendFramed_asciiMap (p : List Byte) (s : State) : (sendFramed p s).asciiMap = s.asciiMap := by rw [sendFramed_eq]
@[simp] theorem sendFramed_resp (p : List Byte) (s : State) : (sendFramed p s).resp = s.resp := by rw [sendFramed_eq]
@[simp] theorem sendFramed_phase (p : List Byte) (s : State) : (sendFramed p s).phase = s.phase := by rw [sendFramed_eq]
@[simp] theorem sendFramed_fault (p : List Byte) (s : State) : (sendFramed p s).fault = contractFault .data s := by rw [sendFramed_eq]
@[simp] theorem sendFramed_req (p : List Byte) (s : State) : (sendFramed p s).req = s.req := by rw [sendFramed_eq]
@[simp] theorem sendFramed_opnd (p : List Byte) (s : State) : (sendFramed p s).opnd = s.opnd := by rw [sendFramed_eq]
@[simp] theorem sendFramed_reqValid (p : List Byte) (s : State) : (sendFramed p s).reqValid = s.reqValid := by rw [sendFramed_eq]
@[simp] theorem sendFramed_resStatus (p : List Byte) (s : State) : (sendFramed p s).resStatus = s.resStatus := by rw [sendFramed_eq]
@[simp] theorem sendFramed_resFlag (p : List Byte) (s : State) : (sendFramed p s).resFlag = s.resFlag := by rw [sendFramed_eq]
@[simp] theorem sendFramed_resLine (p : List Byte) (s : State) : (sendFramed p s).resLine = s.resLine := by rw [sendFramed_eq]
@[simp] theorem sendFramed_tx (p : List Byte) (s : State) : (sendFramed p s).tx = s.tx ++ frame p := by rw [sendFramed_eq]
@[simp] theorem sendFramed_txTaken (p : List Byte) (s : State) : (sendFramed p s).txTaken = s.txTaken := by rw [sendFramed_eq]
@[simp] theorem sendFramed_rx (p : List Byte) (s : State) : (sendFramed p s).rx = s.rx := by rw [sendFramed_eq]
@[simp] theorem sendFramed_radioMode (p : List Byte) (s : State) : (sendFramed p s).radioMode = s.radioMode := by rw [sendFramed_eq]
@[simp] theorem sendFramed_params (p : List Byte) (s : State) : (sendFramed p s).params = s.params := by rw [sendFramed_eq]
@[simp] theorem sendFramed_turns (p : List Byte) (s : State) : (sendFramed p s).turns = s.turns := by rw [sendFramed_eq]

/-! ### facadeSend -/

@[simp] theorem facadeSend_mode (id : Byte) (d : List Byte) (s : State) : (facadeSend id d s).mode = s.mode := by rw [facadeSend_eq]
@[simp] theorem facadeSend_mod (id : Byte) (d : List Byte) (s : State) : (facadeSend id d s).mod = s.mod := by rw [facadeSend_eq]
@[simp] theorem facadeSend_keys (id : Byte) (d : List Byte) (s : State) : (facadeSend id d s).keys = s.keys := by rw [facadeSend_eq]
@[simp] theorem facadeSend_btn (id : Byte) (d : List Byte) (s : State) : (facadeSend id d s).btn = s.btn := by rw [facadeSend_eq]
@[simp] theorem facadeSend_asciiMap (id : Byte) (d : List Byte) (s : State) : (facadeSend id d s).asciiMap = s.asciiMap := by rw [facadeSend_eq]
@[simp] theorem facadeSend_resp (id : Byte) (d : List Byte) (s : State) : (facadeSend id d s).resp = s.resp := by rw [facadeSend_eq]
@[simp] theorem facadeSend_phase (id : Byte) (d : List Byte) (s : State) : (facadeSend id d s).phase = s.phase := by rw [facadeSend_eq]
@[simp] theorem facadeSend_fault (id : Byte) (d : List Byte) (s : State) : (facadeSend id d s).fault = contractFault .data s := by rw [facadeSend_eq]
@[simp] theorem facadeSend_req (id : Byte) (d : List Byte) (s : State) : (facadeSend id d s).req = s.req := by rw [facadeSend_eq]
@[simp] theorem facadeSend_opnd (id : Byte) (d : List Byte) (s : State) : (facadeSend id d s).opnd = s.opnd := by rw [facadeSend_eq]
@[simp] theorem facadeSend_reqValid (id : Byte) (d : List Byte) (s : State) : (facadeSend id d s).reqValid = s.reqValid := by rw [facadeSend_eq]
@[simp] theorem facadeSend_resStatus (id : Byte) (d : List Byte) (s : State) : (facadeSend id d s).resStatus = s.resStatus := by rw [facadeSend_eq]
@[simp] theorem facadeSend_resFlag (id : Byte) (d : List Byte) (s : State) : (facadeSend id d s).resFlag = s.resFlag := by rw [facadeSend_eq]
@[simp] theorem facadeSend_resLine (id : Byte) (d : List Byte) (s : State) : (facadeSend id d s).resLine = s.resLine := by rw [facadeSend_eq]
@[simp] theorem facadeSend_tx (id : Byte) (d : List Byte) (s : State) : (facadeSend id d s).tx = s.tx ++ frame (id :: d) := by rw [facadeSend_eq]
@[simp] theorem facadeSend_txTaken (id : Byte) (d : List Byte) (s : State) : (facadeSend id d s).txTaken = s.txTaken := by rw [facadeSend_eq]
@[simp] theorem facadeSend_rx (id : Byte) (d : List Byte) (s : State) : (facadeSend id d s).rx = s.rx := by rw [facadeSend_eq]
@[simp] theorem facadeSend_radioMode (id : Byte) (d : List Byte) (s : State) : (facadeSend id d s).radioMode = s.radioMode := by rw [facadeSend_eq]
@[simp] theorem facadeSend_params (id : Byte) (d : List Byte) (s : State) : (facadeSend id d s).params = s.params := by rw [facadeSend_eq]
@[simp] theorem facadeSend_turns (id : Byte) (d : List Byte) (s : State) : (facadeSend id d s).turns = s.turns := by rw [facadeSend_eq]

/-! ### kbSend -/

@[simp] theorem kbSend_mode (s : State) : (kbSend s).mode = s.mode := by rw [kbSend_eq]
@[simp] theorem kbSend_mod (s : State) : (kbSend s).mod = s.mod := by rw [kbSend_eq]
@[simp] theorem kbSend_keys (s : State) : (kbSend s).keys = s.keys := by rw [kbSend_eq]
@[simp] theorem kbSend_btn (s : State) : (kbSend s).btn = s.btn := by rw [kbSend_eq]
@[simp] theorem kbSend_asciiMap (s : State) : (kbSend s).asciiMap = s.asciiMap := by rw [kbSend_eq]
@[simp] theorem kbSend_resp (s : State) : (kbSend s).resp = s.resp := by rw [kbSend_eq]
@[simp] theorem kbSend_phase (s : State) : (kbSend s).phase = s.phase := by rw [kbSend_eq]
@[simp] theorem kbSend_fault (s : State) : (kbSend s).fault = contractFault .data s := by rw [kbSend_eq]
@[simp] theorem kbSend_req (s : State) : (kbSend s).req = s.req := by rw [kbSend_eq]
@[simp] theorem kbSend_opnd (s : State) : (kbSend s).opnd = s.opnd := by rw [kbSend_eq]
@[simp] theorem kbSend_reqValid (s : State) : (kbSend s).reqValid = s.reqValid := by rw [kbSend_eq]
@[simp] theorem kbSend_resStatus (s : State) : (kbSend s).resStatus = s.resStatus := by rw [kbSend_eq]
@[simp] theorem kbSend_resFlag (s : State) : (kbSend s).resFlag = s.resFlag := by rw [kbSend_eq]
@[simp] theorem kbSend_resLine (s : State) : (kbSend s).resLine = s.resLine := by rw [kbSend_eq]
@[simp] theorem kbSend_tx (s : State) : (kbSend s).tx = s.tx ++ [0xFD#8, 0x09#8, 0x01#8, s.mod, 0x00#8,
      s.keys.k0, s.keys.k1, s.keys.k2, s.keys.k3, s.keys.k4, s.keys.k5] := by rw [kbSend_eq]
@[simp] theorem kbSend_txTaken (s : State) : (kbSend s).txTaken = s.txTaken := by rw [kbSend_eq]
@[simp] theorem kbSend_rx (s : State) : (kbSend s).rx = s.rx := by rw [kbSend_eq]
@[simp] theorem kbSend_radioMode (s : State) : (kbSend s).radioMode = s.radioMode := by rw [kbSend_eq]
@[simp] theorem kbSend_params (s : State) : (kbSend s).params = s.params := by rw [kbSend_eq]
@[simp] theorem kbSend_turns (s : State) : (kbSend s).turns = s.turns := by rw [kbSend_eq]

/-! ### msSend -/

@[simp] theorem msSend_mode (dx dy dw : Byte) (s : State) : (msSend dx dy dw s).mode = s.mode := by rw [msSend_eq]
@[simp] theorem msSend_mod (dx dy dw : Byte) (s : State) : (msSend dx dy dw s).mod = s.mod := by rw [msSend_eq]
@[simp] theorem msSend_keys (dx dy dw : Byte) (s : State) : (msSend dx dy dw s).keys = s.keys := by rw [msSend_eq]
@[simp] theorem msSend_btn (dx dy dw : Byte) (s : State) : (msSend dx dy dw s).btn = s.btn := by rw [msSend_eq]
@[simp] theorem msSend_asciiMap (dx dy dw : Byte) (s : State) : (msSend dx dy dw s).asciiMap = s.asciiMap := by rw [msSend_eq]
@[simp] theorem msSend_resp (dx dy dw : Byte) (s : State) : (msSend dx dy dw s).resp = s.resp := by rw [msSend_eq]
@[simp] theorem msSend_phase (dx dy dw : Byte) (s : State) : (msSend dx dy dw s).phase = s.phase := by rw [msSend_eq]
@[simp] theorem msSend_fault (dx dy dw : Byte) (s : State) : (msSend dx dy dw s).fault = contractFault .data s := by rw [msSend_eq]
@[simp] theorem msSend_req (dx dy dw : Byte) (s : State) : (msSend dx dy dw s).req = s.req := by rw [msSend_eq]
@[simp] theorem msSend_opnd (dx dy dw : Byte) (s : State) : (msSend dx dy dw s).opnd = s.opnd := by rw [msSend_eq]
@[simp] theorem msSend_reqValid (dx dy dw : Byte) (s : State) : (msSend dx dy dw s).reqValid = s.reqValid := by rw [msSend_eq]
@[simp] theorem msSend_resStatus (dx dy dw : Byte) (s : State) : (msSend dx dy dw s).resStatus = s.resStatus := by rw [msSend_eq]
@[simp] theorem msSend_resFlag (dx dy dw : Byte) (s : State) : (msSend dx dy dw s).resFlag = s.resFlag := by rw [msSend_eq]
@[simp] theorem msSend_resLine (dx dy dw : Byte) (s : State) : (msSend dx dy dw s).resLine = s.resLine := by rw [msSend_eq]
@[simp] theorem msSend_tx (dx dy dw : Byte) (s : State) : (msSend dx dy dw s).tx = s.tx ++ [0xFD#8, 0x05#8, 0x02#8, s.btn, dx, dy, dw] := by rw [msSend_eq]
@[simp] theorem msSend_txTaken (dx dy dw : Byte) (s : State) : (msSend dx dy dw s).txTaken = s.txTaken := by rw [msSend_eq]
@[simp] theorem msSend_rx (dx dy dw : Byte) (s : State) : (msSend dx dy dw s).rx = s.rx := by rw [msSend_eq]
@[simp] theorem msSend_radioMode (dx dy dw : Byte) (s : State) : (msSend dx dy dw s).radioMode = s.radioMode := by rw [msSend_eq]
@[simp] theorem msSend_params (dx dy dw : Byte) (s : State) : (msSend dx dy dw s).params = s.params := by rw [msSend_eq]
@[simp] theorem msSend_turns (dx dy dw : Byte) (s : State) : (msSend dx dy dw s).turns = s.turns := by rw [msSend_eq]

end Sys2Proof.Machine
end

