-- ==== Sys2Proof/Laws/Step.lean ====
section
/-! SUPPORT. Said once: all that a turn of each agent can do (R38, R40, R41), and where a turn goes to the block. -/

namespace Sys2Proof.Machine

/-- A request accepted by an Idle block (R38). -/
theorem blockStep_idle {offered : Bool} {s : State} (hp : s.phase = .idle) (hv : s.reqValid = true) :
    blockStep offered s = acceptRequest { s with reqValid := false } := by
  rw [blockStep, hp]; exact if_pos hv

/-- The block's step in a line read with a byte at hand (R38). -/
theorem blockStep_line {offered : Bool} {s : State} {k : Exchange} {b : Byte} {rest : List Byte}
    (hp : s.phase = .readLine k) (hr : s.rx = b :: rest) :
    blockStep offered s = .next (takeLineByte k b { s with rx := rest }) := by
  simp only [blockStep, hp, lineStep, rxRead, hr]

/-- All that a step of the block can do when it answers a next state: execute the request, halt on an illegal one,
read one byte of a line, or end a line by timeout (R38). -/
theorem blockStep_cases {offered : Bool} {s s' : State} (h : blockStep offered s = .next s') :
    (s.phase = .idle ∧ s.reqValid = true ∧
      ∃ i, decode s.params.operandCap s.req s.opnd = .ok i ∧ exec i { s with reqValid := false } = .next s') ∨
    (s.phase = .idle ∧ s.reqValid = true ∧ (∃ e, decode s.params.operandCap s.req s.opnd = .error e) ∧
      s' = { s with reqValid := false, fault := s.fault ||| 0b100#3, phase := .halted }) ∨
    (∃ k b rest, s.phase = .readLine k ∧ s.rx = b :: rest ∧ s' = takeLineByte k b { s with rx := rest }) ∨
    (∃ k, s.phase = .readLine k ∧ s.rx = [] ∧ offered = true ∧ s.params.timeoutEnabled = true ∧ s' = timeoutLine s) := by
  unfold blockStep at h
  split at h
  · next hp =>
    split at h
    · next hv =>
      unfold acceptRequest at h
      split at h
      · next e hd => cases h; exact .inr (.inl ⟨hp, hv, ⟨e, hd⟩, rfl⟩)
      · next i hd => exact .inl ⟨hp, hv, i, hd, h⟩
    · cases h
  · next k hp =>
    unfold lineStep at h
    split at h
    · next b t hr =>
      cases h
      obtain ⟨rest, hrx, rfl⟩ := rxRead_eq_some hr
      exact .inr (.inr (.inl ⟨k, b, rest, hp, hrx, rfl⟩))
    · next hr =>
      split at h
      · next ho =>
        cases h
        have hrx : s.rx = [] := by
          unfold rxRead at hr
          split at hr
          · assumption
          · cases hr
        simp only [Bool.and_eq_true] at ho
        exact .inr (.inr (.inr ⟨k, hp, hrx, ho.1, ho.2, rfl⟩))
      · cases h
  · cases h

/-- The host's move, when it has one (R41). -/
theorem hostPresent_eq_next {req : Word} {opnd : List Byte} {s s' : State} (h : hostPresent req opnd s = .next s') :
    s.phase = .idle ∧ s.reqValid = false ∧ s' = { s with req := req, opnd := opnd, reqValid := true } := by
  unfold hostPresent at h
  split at h
  · next hr =>
    cases h
    simp only [State.ready, Bool.and_eq_true, beq_iff_eq, Bool.not_eq_true'] at hr
    exact ⟨hr.1, hr.2, rfl⟩
  · cases h

/-- The peer's consuming of a TX byte, when there is one (R40). -/
theorem peerTake_eq_next {s s' : State} (h : peerTake s = .next s') :
    s.txTaken < s.tx.length ∧ s' = { s with txTaken := s.txTaken + 1 } := by
  unfold peerTake at h
  split at h
  · next hl => cases h; exact ⟨hl, rfl⟩
  · cases h

/-- All that one step can be: a step of the block, from the state without the turn taken, or a move of another agent
(R10). -/
theorem step_cases {s s' : State} (h : step s = .next s') :
    (∃ offered, s.turns.headD .block = (if offered then .timeout else .block) ∧
      blockStep offered { s with turns := s.turns.tail } = .next s') ∨
    (∃ ts req opnd, s.turns = .host req opnd :: ts ∧ s.phase = .idle ∧ s.reqValid = false ∧
      s' = { s with turns := ts, req := req, opnd := opnd, reqValid := true }) ∨
    (∃ ts b, s.turns = .peerSend b :: ts ∧ s' = { s with turns := ts, rx := s.rx ++ [b] }) ∨
    (∃ ts, s.turns = .peerTake :: ts ∧ s.txTaken < s.tx.length ∧
      s' = { s with turns := ts, txTaken := s.txTaken + 1 }) ∨
    (∃ ts m, s.turns = .peerMode m :: ts ∧ s' = { s with turns := ts, radioMode := m }) ∨
    (∃ ts, s.turns = .reset :: ts ∧ s' = applyReset { s with turns := ts }) := by
  unfold step nextTurn at h
  split at h
  · next ht =>
    exact .inl ⟨false, by rw [ht]; rfl, by rw [ht, List.tail_nil, ← ht]; exact h⟩
  · next t ts ht =>
    cases t with
    | block => exact .inl ⟨false, by rw [ht]; rfl, by rw [ht, List.tail_cons]; exact h⟩
    | timeout => exact .inl ⟨true, by rw [ht]; rfl, by rw [ht, List.tail_cons]; exact h⟩
    | host req opnd =>
      obtain ⟨h1, h2, h3⟩ := hostPresent_eq_next h
      exact .inr (.inl ⟨ts, req, opnd, ht, h1, h2, h3⟩)
    | peerSend b => cases h; exact .inr (.inr (.inl ⟨ts, b, ht, rfl⟩))
    | peerTake =>
      obtain ⟨h1, h2⟩ := peerTake_eq_next h
      exact .inr (.inr (.inr (.inl ⟨ts, ht, h1, h2⟩)))
    | peerMode m => cases h; exact .inr (.inr (.inr (.inr (.inl ⟨ts, m, ht, rfl⟩))))
    | reset => cases h; exact .inr (.inr (.inr (.inr (.inr ⟨ts, ht, rfl⟩))))

/-- With no turns listed the step is the block's (log 2). -/
theorem step_of_no_turns {s : State} (h : s.turns = []) : step s = blockStep false s := by
  rw [step, nextTurn, h]

/-- A listed turn of the block is the block's step without that turn (log 2). -/
theorem step_of_block_turn {s : State} {ts : List Turn} (h : s.turns = .block :: ts) :
    step s = blockStep false { s with turns := ts } := by
  rw [step, nextTurn, h]; rfl

/-- Both at once: where no turn is listed, or the block's is listed first, the step is the block's, with the turns `ts`
after it (log 2). -/
theorem step_of_either_block_turn {s : State} {ts : List Turn} (h : (s.turns = [] ∧ ts = []) ∨ s.turns = .block :: ts) :
    step s = blockStep false { s with turns := ts } := by
  rcases h with ⟨h, rfl⟩ | h
  · rw [step_of_no_turns h, ← h]
  · exact step_of_block_turn h

/-- The step after a request is presented accepts that request (log 1). -/
theorem step_presentRequest (r : Request) (s : State) :
    step (presentRequest r s) = acceptRequest { s with req := r.word, opnd := r.opnd, phase := .idle, reqValid := false } := by
  rw [step_of_block_turn (presentRequest_turns r s), blockStep_idle rfl rfl]; rfl

/-- One more step of a run of any machine, when the first step answers a next state. -/
theorem run_succ_of_next (M : Host.Core) {s t : M.State} (h : M.step s = .next t) (n : Nat) :
    M.run (n + 1) s = M.run n t := by
  simp only [Host.Core.run, h]

/-- One more step of a run of this machine, when the first step answers a next state. -/
theorem core_run_next {s t : State} (h : step s = .next t) (n : Nat) :
    Sys2Proof.core.run (n + 1) s = Sys2Proof.core.run n t :=
  run_succ_of_next Sys2Proof.core h n

end Sys2Proof.Machine
end

