-- ==== Sys2Proof/Tests/Slice0.lean ====
section
/-! SUPPORT. Tests: ill-formed instructions that the well-formedness check refuses; one word of every operation,
written out from the encoding of R71 and R77, and what the decoder reads from it; single steps whose expected results
are the vectors of 95_test_vectors.md; and a concrete witness of the hypotheses of each statement. -/

namespace Sys2Proof.Tests

open Machine Spec

/-! ## Well-formedness: an operand sequence longer than `OPERAND_CAP` is refused (R76, R78) -/

theorem test_ill_formed_rlSendCmd : (Instr.rlSendCmd [0x44, 0x0D]).wellFormed 1 = false := by decide
theorem test_ill_formed_rlSendReport : (Instr.rlSendReport [0x01]).wellFormed 0 = false := by decide
theorem test_ill_formed_rlSendControl : (Instr.rlSendControl 0x55 [1, 2, 3]).wellFormed 2 = false := by decide
theorem test_ill_formed_hidSendReport : (Instr.hidSendReport 1 [0, 5, 0, 0]).wellFormed 3 = false := by decide

/-! ## Decoding: a word of every row of R77, written out as 95_test_vectors.md gives it -/

theorem test_decode_kbPress : decode 65535 0x00006101#32 [] = .ok (.kbPress 0x61) := by decide
theorem test_decode_kbRelease : decode 65535 0x00008102#32 [] = .ok (.kbRelease 0x81) := by decide
theorem test_decode_kbReleaseAll : decode 65535 0x00000003#32 [] = .ok .kbReleaseAll := by decide
theorem test_decode_kbWrite : decode 65535 0x00004804#32 [] = .ok (.kbWrite 0x48) := by decide
theorem test_decode_msMove : decode 65535 0xFF807F10#32 [] = .ok (.msMove 0x7F 0x80 0xFF) := by decide
theorem test_decode_msClick : decode 65535 0x00000111#32 [] = .ok (.msClick 0x01) := by decide
theorem test_decode_msPress : decode 65535 0x00000612#32 [] = .ok (.msPress 0x06) := by decide
theorem test_decode_msRelease : decode 65535 0x00000313#32 [] = .ok (.msRelease 0x03) := by decide
theorem test_decode_msIsPressed : decode 65535 0x00000514#32 [] = .ok (.msIsPressed 0x05) := by decide
theorem test_decode_rlEnterCmd : decode 65535 0x00000020#32 [] = .ok .rlEnterCmd := by decide
theorem test_decode_rlSendCmd : decode 65535 0x00020021#32 [0x44, 0x0D] = .ok (.rlSendCmd [0x44, 0x0D]) := by decide
theorem test_decode_rlExitCmd : decode 65535 0x00000022#32 [] = .ok .rlExitCmd := by decide
theorem test_decode_rlSendReport :
    decode 65535 0x00020023#32 [0x01, 0xAB] = .ok (.rlSendReport [0x01, 0xAB]) := by decide
theorem test_decode_rlSendControl :
    decode 65535 0x00035524#32 [1, 2, 3] = .ok (.rlSendControl 0x55 [1, 2, 3]) := by decide
theorem test_decode_hidSendReport :
    decode 65535 0x00040130#32 [0, 5, 0, 0] = .ok (.hidSendReport 1 [0, 5, 0, 0]) := by decide
theorem test_decode_hidGetInterface : decode 65535 0x00000031#32 [] = .ok .hidGetInterface := by decide
theorem test_decode_hidGetDescriptor : decode 65535 0x00000032#32 [] = .ok .hidGetDescriptor := by decide
theorem test_decode_hidSetup : decode 65535 0x00000033#32 [] = .ok .hidSetup := by decide

/-- Vectors D1, D7, D8, D9: unassigned opcodes. -/
theorem test_illegal_unassigned :
    [0x00000000#32, 0x000000FF#32, 0x00000015#32, 0x00000134#32].map (fun w => decode 65535 w []) =
      List.replicate 4 (.error .unassignedOpcode) := by decide

/-- Vectors D2, D3, D4: a reserved field of format N, of format K, and `X` of format S0. -/
theorem test_illegal_reserved :
    [decode 65535 0x00000103#32 [], decode 65535 0x01006101#32 [], decode 65535 0x00020121#32 [0, 0]] =
      List.replicate 3 (.error .reservedField) := by decide

/-- Vector D5: `LEN = 3` with two bytes. -/
theorem test_illegal_length : decode 65535 0x00030023#32 [0, 0] = .error .lengthMismatch := by decide

/-- Vector D11: `LEN = 1` with `OPERAND_CAP = 0`. -/
theorem test_illegal_capacity : decode 0 0x00010023#32 [0] = .error .overCapacity := by decide

/-- U8, log 22: an operand sequence longer than the buffer, with a word that carries none. -/
theorem test_illegal_overlong : decode 1 0x00000003#32 [7, 7] = .error .overCapacity := by decide

/-- R53: the word's low byte goes first on a byte-wide bus, the operand bytes after the word. -/
theorem test_bus_order :
    requestOfBus [0x21, 0x00, 0x02, 0x00, 0x44, 0x0D] = some ⟨0x00020021#32, [0x44, 0x0D]⟩ := by decide

/-- A format S word in the opcode table's numbering gets `LEN` operand bytes of zeros (log 17). -/
theorem test_table_word : decodeTableWord 32 0x00020023 = some (.rlSendReport [0, 0]) := by decide

/-! ## Assembly text: the examples of R81 and R82 -/

theorem test_assemble_press : assemble? Params.default "KB_PRESS 'a'" = some [⟨0x00006101#32, []⟩] := by
  decide
theorem test_assemble_move : assemble? Params.default "MS_MOVE -1, 2, 0" = some [⟨0x0002FF10#32, []⟩] := by
  decide
theorem test_assemble_report : assemble? Params.default "HID_SEND_REPORT 2, [0,0,4,0,0,0,0,0]" =
    some [⟨0x00080230#32, [0, 0, 4, 0, 0, 0, 0, 0]⟩] := by decide
theorem test_assemble_rlCmd : assemble? Params.default "RL_CMD \"SN,KB\"" =
    some [⟨0x00060021#32, [0x53, 0x4E, 0x2C, 0x4B, 0x42, 0x0D]⟩] := by decide
theorem test_assemble_kbType : assemble? Params.default "KB_TYPE \"Hi\"" =
    some [⟨0x00004804#32, []⟩, ⟨0x00006904#32, []⟩] := by decide

/-! ## Single steps -/

/-- The state with a request presented, and only the block to move (R41). -/
def presented (word : Word) (opnd : List Byte) (s : State) : State :=
  { s with req := word, opnd := opnd, reqValid := true }

/-- What `f` reads of the next state, if the step answers one. -/
def seen {α : Type} (f : State → α) (s : State) : Option α :=
  match step s with
  | .next t => some (f t)
  | .fault _ => none
  | .refused _ => none

/-- `KF(m; k0 .. k5)` of 95_test_vectors.md. -/
def kf (m k0 k1 k2 k3 k4 k5 : Byte) : List Byte := [0xFD, 0x09, 0x01, m, 0x00, k0, k1, k2, k3, k4, k5]

/-- `MF(b, x, y, w)` of 95_test_vectors.md. -/
def mf (b x y w : Byte) : List Byte := [0xFD, 0x05, 0x02, b, x, y, w]

/-- `KEYS = [04,05,06,07,08,09]`, the start of the vectors "as K12". -/
def full : State := { State.reset with keys := ⟨4, 5, 6, 7, 8, 9⟩ }

/-- `MODE = 1`. -/
def commandMode : State := { State.reset with mode := .command }

/-- `BTN = b`. -/
def buttons (b : Byte) : State := { State.reset with btn := b }

/-- K12: the usage is held, so a full report does not matter, and shift is added. -/
theorem test_kbPress_held_on_full : seen (fun t => (t.mod, t.keys, t.tx)) (presented 0x00004101#32 [] full) =
    some (0x02, ⟨4, 5, 6, 7, 8, 9⟩, kf 2 4 5 6 7 8 9) := by decide
/-- K17: the freed slot 1 is refilled. -/
theorem test_kbPress_refills : seen (fun t => t.keys)
    (presented 0x00006401#32 [] { State.reset with keys := ⟨4, 0, 6, 0, 0, 0⟩ }) = some ⟨4, 7, 6, 0, 0, 0⟩ := by
  decide
/-- K18: both slots that hold the usage are cleared. -/
theorem test_kbRelease_clears_all : seen (fun t => (t.keys, t.tx))
    (presented 0x00006102#32 [] { State.reset with keys := ⟨4, 4, 0, 0, 0, 0⟩ }) =
      some (⟨0, 0, 0, 0, 0, 0⟩, kf 0 0 0 0 0 0 0) := by decide
/-- K26: a modifier's bit is cleared, the other one stays. -/
theorem test_kbRelease_modifier : seen (fun t => (t.mod, t.tx))
    (presented 0x00008102#32 [] { State.reset with mod := 0x03 }) = some (0x01, kf 1 0 0 0 0 0 0) := by
  decide
/-- K21, with `BTN` set: it is not touched (R105). -/
theorem test_kbReleaseAll : seen (fun t => (t.mod, t.keys, t.btn, t.tx))
    (presented 0x00000003#32 [] { State.reset with mod := 0x05, keys := ⟨4, 5, 0, 0, 0, 0⟩, btn := 0x07 }) =
      some (0, ⟨0, 0, 0, 0, 0, 0⟩, 0x07, kf 0 0 0 0 0 0 0) := by decide
/-- K22. -/
theorem test_kbWrite_shifted : seen (fun t => (t.mod, t.tx)) (presented 0x00004804#32 [] State.reset) =
    some (0, kf 2 0x0B 0 0 0 0 0 ++ kf 0 0 0 0 0 0 0) := by decide
/-- K24: the press fails, the release still sends one frame. -/
theorem test_kbWrite_full : seen (fun t => (t.resStatus, t.resFlag, t.tx)) (presented 0x00006704#32 [] full) =
    some (0x02, false, kf 0 4 5 6 7 8 9) := by decide
/-- M3: an inner `FD` is not escaped. -/
theorem test_msMove_inner_start : seen (fun t => t.tx) (presented 0x0000FD10#32 [] State.reset) =
    some [0xFD, 0x05, 0x02, 0x00, 0xFD, 0x00, 0x00] := by decide
/-- M16: the frame is sent in Command mode too, and the fault is recorded. -/
theorem test_msMove_in_command_mode : seen (fun t => (t.fault, t.tx)) (presented 0x00000010#32 [] commandMode) =
    some (0b001, mf 0 0 0 0) := by decide
/-- M6. -/
theorem test_msClick_keeps_others : seen (fun t => (t.btn, t.tx)) (presented 0x00000111#32 [] (buttons 2)) =
    some (2, mf 3 0 0 0 ++ mf 2 0 0 0) := by decide
/-- M5. -/
theorem test_msClick_when_held : seen (fun t => (t.btn, t.tx)) (presented 0x00000111#32 [] (buttons 1)) =
    some (0, mf 1 0 0 0 ++ mf 0 0 0 0) := by decide
/-- M11. -/
theorem test_msPress_adds : seen (fun t => (t.btn, t.tx)) (presented 0x00000612#32 [] (buttons 2)) =
    some (6, mf 6 0 0 0) := by decide
/-- M9. -/
theorem test_msPress_no_change : seen (fun t => (t.btn, t.tx)) (presented 0x00000112#32 [] (buttons 1)) =
    some (1, []) := by decide
/-- The example of R134. -/
theorem test_msRelease_one : seen (fun t => (t.btn, t.tx)) (presented 0x00000113#32 [] (buttons 3)) =
    some (2, mf 2 0 0 0) := by decide
/-- M12. -/
theorem test_msRelease_no_change : seen (fun t => (t.btn, t.tx)) (presented 0x00000113#32 [] (buttons 0)) =
    some (0, []) := by decide
/-- M14: one bit of the mask is clear. -/
theorem test_msIsPressed_not_all : seen (fun t => (t.resStatus, t.resFlag))
    (presented 0x00000514#32 [] (buttons 3)) = some (0x00, false) := by decide
/-- M14: the empty mask. -/
theorem test_msIsPressed_empty : seen (fun t => (t.resFlag, t.tx)) (presented 0x00000014#32 [] (buttons 3)) =
    some (true, []) := by decide
/-- E1, first step. -/
theorem test_rlEnterCmd_start : seen (fun t => (t.phase, t.tx)) (presented 0x00000020#32 [] State.reset) =
    some (.readLine .enter, [0x00, 0x24, 0x24, 0x24]) := by decide
/-- E4, last step: `CMD` and a blank fails. -/
theorem test_rlEnterCmd_suffix : seen (fun t => (t.mode, t.resStatus, t.resFlag))
    { State.reset with phase := .readLine .enter, resp := [0x43, 0x4D, 0x44, 0x20], rx := [0x0D] } =
      some (.data, 0x03, false) := by decide
/-- S3, first step: the call in Data mode is a fault, and the text goes out. -/
theorem test_rlSendCmd_in_data_mode : seen (fun t => (t.fault, t.tx))
    (presented 0x00020021#32 [0x44, 0x0D] State.reset) = some (0b001, [0x44, 0x0D]) := by decide
/-- S4, last step: the line ends at the first CR. -/
theorem test_rlSendCmd_line : seen (fun t => (t.resLine, t.rx))
    { commandMode with phase := .readLine .cmd, resp := [0x58], rx := [0x0D, 0x59, 0x0D] } =
      some ([0x58], [0x59, 0x0D]) := by decide
/-- X1: RX is not touched. -/
theorem test_rlExitCmd : seen (fun t => (t.mode, t.tx, t.rx))
    (presented 0x00000022#32 [] { commandMode with rx := [0x45] }) =
      some (.data, [0x2D, 0x2D, 0x2D, 0x0D], [0x45]) := by decide
/-- X2. -/
theorem test_rlExitCmd_in_data_mode : seen (fun t => (t.mode, t.fault)) (presented 0x00000022#32 [] State.reset) =
    some (.data, 0b001) := by decide
/-- F5: only byte 0 is swapped. -/
theorem test_rlSendReport_swap : seen (fun t => t.tx) (presented 0x00020023#32 [2, 1] State.reset) =
    some [0xFD, 0x02, 0x01, 0x01] := by decide
/-- F7: 256 bytes of `01`; the length byte wraps to 0. -/
theorem test_rlSendReport_wraps : seen (fun t => (t.tx.take 4, t.tx.length))
    (presented 0x01000023#32 (List.replicate 256 1) State.reset) = some ([0xFD, 0x00, 0x02, 0x01], 258) := by
  decide +kernel
/-- C1. -/
theorem test_rlSendControl_any_mode : seen (fun t => (t.tx, t.fault))
    (presented 0x00035524#32 [1, 2, 3] commandMode) = some ([1, 2, 3], 0) := by decide
/-- C3: no swap. -/
theorem test_rlSendControl_no_swap : seen (fun t => t.tx) (presented 0x0001FF24#32 [1] State.reset) =
    some [1] := by decide
/-- H1. -/
theorem test_hidSendReport : seen (fun t => t.tx) (presented 0x00040130#32 [0, 5, 0, 0] State.reset) =
    some [0xFD, 0x05, 0x02, 0x00, 0x05, 0x00, 0x00] := by decide
/-- H5: KeyState is not written. -/
theorem test_hidSendReport_keeps_keys : seen (fun t => (t.keys, t.tx))
    (presented 0x00080230#32 [0, 0, 4, 0, 0, 0, 0, 0] State.reset) =
      some (⟨0, 0, 0, 0, 0, 0⟩, kf 0 4 0 0 0 0 0) := by decide
/-- H4, in Command mode. -/
theorem test_hidGetInterface : seen (fun t => (t.tx, t.fault, t.resStatus))
    (presented 0x00000031#32 [] commandMode) = some ([], 0, 0) := by decide
/-- H4, in Command mode. -/
theorem test_hidGetDescriptor : seen (fun t => (t.tx, t.fault, t.resFlag))
    (presented 0x00000032#32 [] commandMode) = some ([], 0, true) := by decide
/-- H4, in Command mode. -/
theorem test_hidSetup : seen (fun t => (t.tx, t.fault, t.resFlag))
    (presented 0x00000033#32 [] commandMode) = some ([], 0, true) := by decide

/-- `ReadLine(Enter)` with `RESP_CAP = 3` and "CMD" read. -/
def capThree (rx : List Byte) : State :=
  { State.reset with
    params := { Params.default with respCap := 3 }, phase := .readLine .enter, resp := [0x43, 0x4D, 0x44], rx := rx }

/-- E11: the fourth byte overflows and the block halts, the CR left. -/
theorem test_line_overflow : seen (fun t => (t.phase, t.fault, t.rx)) (capThree [0x58, 0x0D]) =
    some (.halted, 0b010, [0x0D]) := by decide
/-- E11b: a CR at full capacity still ends the line. -/
theorem test_line_ends_at_capacity : seen (fun t => (t.mode, t.resStatus, t.resp)) (capThree [0x0D]) =
    some (.command, 0x00, []) := by decide
/-- E9: the timeout while RX is empty. -/
theorem test_line_timeout : seen (fun t => (t.mode, t.resStatus, t.resp))
    { State.reset with params := { Params.default with timeoutEnabled := true }, phase := .readLine .enter,
                       resp := [0x43, 0x4D], turns := [.timeout] } =
      some (.data, 0x04, []) := by decide
/-- E8, S5: nothing to read, no timeout: no step. -/
theorem test_line_held : step { State.reset with phase := .readLine .cmd } = .fault .lineHeld := rfl
/-- D1. -/
theorem test_illegal_halts : seen (fun t => (t.phase, t.fault, t.tx)) (presented 0x00000000#32 [] State.reset) =
    some (.halted, 0b100, []) := by decide
/-- D10, P7 step 2: a halted block is offered no request. -/
theorem test_halted_accepts_nothing :
    step { State.reset with phase := .halted, turns := [.host 0x00006101#32 []] } = .fault .hostHasNoMove :=
  rfl
/-- A presented table word runs as the first instruction after reset. -/
theorem test_withFetchWord : seen (fun t => t.tx) (State.reset.withFetchWord 32 0x00020023) =
    some [0xFD, 0x02, 0x00, 0x00] := by decide

/-! ## Witnesses: for each statement that has hypotheses, values that meet them -/

/-- The largest sequence a capacity of 2 admits, and the empty one at capacity 0. -/
theorem witness_DecodeOfEncodeIsTheInstruction :
    (Instr.rlSendCmd [0x44, 0x0D]).wellFormed 2 = true ∧ (Instr.hidSendReport 0xFF []).wellFormed 0 = true ∧
      (Instr.msMove 0x80 0x7F 0xFF).wellFormed 0 = true := by decide

theorem witness_EncodeOfDecodeIsTheRequest :
    decode 2 0x00020021#32 [0x44, 0x0D] = .ok (.rlSendCmd [0x44, 0x0D]) ∧
      decode 1 0x00000003#32 [7] = .ok .kbReleaseAll := by decide

theorem witness_StepRunsTheDecodedInstruction :
    (presented 0x00000003#32 [] State.reset).phase = .idle ∧
    (presented 0x00000003#32 [] State.reset).reqValid = true ∧
    decode (presented 0x00000003#32 [] State.reset).params.operandCap (presented 0x00000003#32 [] State.reset).req
      (presented 0x00000003#32 [] State.reset).opnd = .ok .kbReleaseAll ∧
    (presented 0x00000003#32 [] State.reset).turns = [] ∧
    ({ presented 0x00000003#32 [] State.reset with turns := [.block, .peerSend 1] } : State).turns =
      .block :: [.peerSend 1] := by decide

theorem witness_PresentedTableWordRunsNext :
    State.reset.params.operandCap = Params.default.operandCap ∧
      decodeTableWord 32 0xFF807F10 = some (.msMove 0x7F 0x80 0xFF) := by decide

theorem witness_IllegalRequestHalts :
    (presented 0x01006101#32 [] State.reset).phase = .idle ∧
    (presented 0x01006101#32 [] State.reset).reqValid = true ∧
    decode (presented 0x01006101#32 [] State.reset).params.operandCap (presented 0x01006101#32 [] State.reset).req
      (presented 0x01006101#32 [] State.reset).opnd = .error .reservedField ∧
    blockTurn (presented 0x01006101#32 [] State.reset) [] := by
  unfold blockTurn
  decide

/-- RL_EXIT_CMD's word with one operand byte, to a block whose operand buffer holds none. -/
def overlong : State := presented 0x22#32 [1] { commandMode with params := { Params.default with operandCap := 0 } }

theorem witness_OverlongOperandsHalt :
    overlong.phase = .idle ∧ overlong.reqValid = true ∧ overlong.params.operandCap.val < overlong.opnd.length ∧
      blockTurn overlong [] := by
  unfold blockTurn
  decide

/-- One state for each of the three cases, and one for none of them. -/
theorem witness_BlockStopsExactlyWhereNoStep :
    (State.reset.turns = [] ∧ State.reset.phase = .idle ∧ State.reset.reqValid = false) ∧
    (({ State.reset with phase := .readLine .enter } : State).turns = [] ∧
      ({ State.reset with phase := .readLine .enter } : State).rx = []) ∧
    ({ State.reset with phase := .halted } : State).turns = [] ∧
    ((presented 0#32 [] State.reset).turns = [] ∧ (presented 0#32 [] State.reset).phase = .idle ∧
      (presented 0#32 [] State.reset).reqValid = true) := by decide

/-- A halted block, with each turn the statement names. -/
def haltedWith (ts : List Turn) : State := { State.reset with phase := .halted, fault := 0b100, turns := ts }

theorem witness_HaltedUntilReset :
    (haltedWith []).phase = .halted ∧ (haltedWith []).turns = [] ∧ (haltedWith [.block]).turns = .block :: [] ∧
    (haltedWith [.timeout]).turns = .timeout :: [] ∧ (haltedWith [.host 0#32 []]).turns = .host 0#32 [] :: [] ∧
    (haltedWith [.reset]).turns = .reset :: [] := by decide

theorem witness_ResetSetsEveryRegister : (haltedWith [.reset, .block]).turns = .reset :: [.block] := by decide

/-- An idle block, a busy one, and one whose latch is full. -/
theorem witness_HostPresentsOnlyWhenReady :
    (({ State.reset with turns := [.host 0x20#32 []] } : State).ready = true ∧
      ({ State.reset with turns := [.host 0x20#32 []] } : State).reqValid = false) ∧
    ¬ (({ State.reset with turns := [.host 0x20#32 []], phase := .readLine .cmd } : State).ready = true) ∧
    ({ State.reset with turns := [.host 0x20#32 []], reqValid := true } : State).reqValid = true := by decide

/-- Each peer turn; the last byte of TX is consumed at `txTaken + 1 = length`. -/
theorem witness_PeerMovesOnlyTheEnvironment :
    ({ State.reset with turns := [.peerSend 0x0D] } : State).turns = .peerSend 0x0D :: [] ∧
    ({ State.reset with turns := [.peerMode .command] } : State).turns = .peerMode .command :: [] ∧
    ({ State.reset with turns := [.peerTake], tx := [1, 2], txTaken := 1 } : State).turns = .peerTake :: [] ∧
    ({ State.reset with turns := [.peerTake], tx := [1, 2], txTaken := 1 } : State).txTaken <
      ({ State.reset with turns := [.peerTake], tx := [1, 2], txTaken := 1 } : State).tx.length := by decide

/-- The first and the last modifier code. -/
theorem witness_KbPressOfAModifier :
    (128 ≤ (0x80 : Byte).toNat ∧ (0x80 : Byte).toNat < 136) ∧
    (128 ≤ (0x87 : Byte).toNat ∧ (0x87 : Byte).toNat < 136) := by
  decide

/-- `'a'`, `'A'`, the first and the last non-printing code, and the last ASCII code that the default map maps. -/
theorem witness_keyUsage :
    keyUsage State.reset.asciiMap 0x61 0x04 false ∧ keyUsage State.reset.asciiMap 0x41 0x04 true ∧
    keyUsage State.reset.asciiMap 0x88 0x00 false ∧ keyUsage State.reset.asciiMap 0xFF 0x77 false ∧
    keyUsage State.reset.asciiMap 0x7A 0x1D false := by
  unfold keyUsage; decide

/-- The first and the last ASCII code, both unmapped in the default map. -/
theorem witness_unmapped : unmapped State.reset.asciiMap 0x00 ∧ unmapped State.reset.asciiMap 0x7F := by
  unfold unmapped; decide

/-- `'A'` on a full report that holds its usage in the first slot. -/
theorem witness_KbPressOfAHeldKey : keyUsage full.asciiMap 0x41 0x04 true ∧ full.keys.get 0 = 0x04 := by
  unfold keyUsage; decide

/-- Only the last slot is empty. -/
def lastSlot : State := { State.reset with mod := 0x05, keys := ⟨5, 6, 8, 9, 10, 0⟩ }

/-- `'d'` when only the last slot is empty, and when only the first is. -/
theorem witness_KbPressFillsTheFirstEmptySlot :
    (keyUsage lastSlot.asciiMap 0x64 0x07 false ∧ (∀ i, lastSlot.keys.get i ≠ 0x07) ∧ firstEmpty lastSlot.keys 5) ∧
    firstEmpty ⟨0, 5, 6, 8, 9, 10⟩ 0 := by
  unfold keyUsage firstEmpty; decide

/-- `'G'` on a full report that does not hold its usage; DEL is unmapped (K13, K15). -/
theorem witness_KbPressErrorsChangeNothing :
    unmapped full.asciiMap 0x7F ∧ keyUsage full.asciiMap 0x47 0x0A true ∧ (∀ i, full.keys.get i ≠ 0x0A) ∧
      (∀ i, full.keys.get i ≠ 0) := by
  unfold keyUsage unmapped; decide

/-- Each class of code the clauses of KB_RELEASE name. -/
theorem witness_KbReleaseClearsAndTransmits :
    (128 ≤ (0x87 : Byte).toNat ∧ (0x87 : Byte).toNat < 136) ∧ unmapped full.asciiMap 0x0D ∧
      keyUsage full.asciiMap 0x62 0x05 false ∧ keyUsage full.asciiMap 0x88 0x00 false := by
  unfold keyUsage unmapped; decide

theorem witness_KbWriteTypesOneKey :
    keyUsage State.reset.asciiMap 0x48 0x0B true ∧ (∀ i, State.reset.keys.get i ≠ 0x0B) ∧
      firstEmpty State.reset.keys 0 := by
  unfold keyUsage firstEmpty; decide

theorem witness_KbWriteOfAModifier :
    (128 ≤ (0x80 : Byte).toNat ∧ (0x80 : Byte).toNat < 136) ∧
    (128 ≤ (0x87 : Byte).toNat ∧ (0x87 : Byte).toNat < 136) := by
  decide

theorem witness_KbWriteAfterAFailedPress :
    unmapped full.asciiMap 0x0D ∧ keyUsage full.asciiMap 0x67 0x0A false ∧ (∀ i, full.keys.get i ≠ 0x0A) ∧
      (∀ i, full.keys.get i ≠ 0) := by
  unfold keyUsage unmapped; decide

/-- KB_PRESS `'A'` from reset answers a next state with status OK. -/
theorem witness_KbWriteIsPressThenRelease :
    exec (.kbPress 0x41) State.reset = .next { State.reset with
      mod := 0x02, keys := ⟨4, 0, 0, 0, 0, 0⟩, tx := kf 2 4 0 0 0 0 0, resFlag := true } := rfl

/-- `'A'` with the shift bit clear and one slot empty. -/
theorem witness_PressThenReleaseRestores :
    (0x41 : Byte).toNat < 128 ∧ keyUsage lastSlot.asciiMap 0x41 0x04 true ∧ (∀ i, lastSlot.keys.get i ≠ 0x04) ∧
    lastSlot.keys.get 5 = 0 ∧ lastSlot.mod &&& lastSlot.params.lshiftMask = 0 := by
  unfold keyUsage; decide

/-- `'a'` to `'g'`, as in program P3. -/
theorem witness_SeventhKeyIsRefused :
    (∀ n : Fin 7, keyUsage State.reset.asciiMap (BitVec.ofNat 8 (0x61 + n.val)) (BitVec.ofNat 8 (4 + n.val)) false) ∧
    (∀ n : Fin 7, BitVec.ofNat 8 (4 + n.val) ≠ 0#8) ∧
    (∀ n m : Fin 7, n ≠ m → BitVec.ofNat 8 (4 + n.val) ≠ BitVec.ofNat 8 (4 + m.val)) ∧
    State.reset.keys = ⟨0, 0, 0, 0, 0, 0⟩ := by
  unfold keyUsage; decide

/-- A mask that changes `BTN`, and one that does not. -/
theorem witness_MsPressReportsOnlyAChange :
    (buttons 2).btn ||| 0x06 ≠ (buttons 2).btn ∧ (buttons 5).btn ||| 0x00 = (buttons 5).btn := by decide

theorem witness_MsReleaseReportsOnlyAChange :
    (buttons 3).btn &&& ~~~0x01 ≠ (buttons 3).btn ∧ (buttons 0).btn &&& ~~~0x01 = (buttons 0).btn := by decide

/-- `ReadLine(k)` after the bytes `resp`, with `rx` to read. -/
def reading (k : Exchange) (resp rx : List Byte) : State :=
  { State.reset with phase := .readLine k, resp := resp, rx := rx }

/-- Exactly `CMD`, and a prefix of it, before the CR, with no turn listed and with the block's turn listed. -/
theorem witness_EntryLineEnds :
    ((reading .enter [0x43, 0x4D, 0x44] [0x0D]).phase = .readLine .enter ∧
      blockTurn (reading .enter [0x43, 0x4D, 0x44] [0x0D]) [] ∧
      (reading .enter [0x43, 0x4D, 0x44] [0x0D]).rx = 0x0D :: [] ∧
      (reading .enter [0x43, 0x4D, 0x44] [0x0D]).resp = [0x43, 0x4D, 0x44]) ∧
    blockTurn { reading .enter [0x43, 0x4D] [0x0D] with turns := [.block, .peerSend 1] } [.peerSend 1] ∧
      (reading .enter [0x43, 0x4D] [0x0D]).rx = 0x0D :: [] ∧
      (reading .enter [0x43, 0x4D] [0x0D]).resp ≠ [0x43, 0x4D, 0x44] := by
  unfold blockTurn
  decide

theorem witness_CommandLineEnds :
    (reading .cmd [0x41] [0x0D, 0x0A]).phase = .readLine .cmd ∧ blockTurn (reading .cmd [0x41] [0x0D, 0x0A]) [] ∧
      (reading .cmd [0x41] [0x0D, 0x0A]).rx = 0x0D :: [0x0A] := by
  unfold blockTurn
  decide

/-- The first byte that does not fit `RESP`, and the last one that does. -/
theorem witness_LineReadTakesOneByte :
    ((capThree [0x44]).phase = .readLine .enter ∧ blockTurn (capThree [0x44]) [] ∧ (capThree [0x44]).rx = 0x44 :: [] ∧
      (0x44 : Byte) ≠ 0x0D ∧ (capThree [0x44]).resp.length = (capThree [0x44]).params.respCap) ∧
    ({ capThree [0x44] with resp := [0x43, 0x4D] } : State).resp.length ≠
      ({ capThree [0x44] with resp := [0x43, 0x4D] } : State).params.respCap := by
  unfold blockTurn
  decide

/-- The line `CMD` at a capacity of exactly three bytes, a line feed left behind the CR. -/
def entering : State :=
  { presented 0x20#32 [] State.reset with
    params := { Params.default with respCap := 3 }, rx := [0x43, 0x4D, 0x44, 0x0D, 0x0A] }

theorem witness_CommandEntryReadsOneLine :
    entering.phase = .idle ∧ entering.reqValid = true ∧ entering.req = 0x20#32 ∧
    entering.opnd.length ≤ entering.params.operandCap.val ∧ entering.turns = [] ∧
    entering.rx = [0x43, 0x4D, 0x44] ++ 0x0D#8 :: [0x0A] ∧ 0x0D#8 ∉ [0x43#8, 0x4D#8, 0x44#8] ∧
    [0x43#8, 0x4D#8, 0x44#8].length ≤ entering.params.respCap ∧
    ({ entering with rx := [0x0D] } : State).rx = [] ++ 0x0D#8 :: [] := by decide

/-- RL_SEND_CMD of `D` and CR with an empty line waiting. -/
def commanding : State := { presented 0x00020021#32 [0x44, 0x0D] commandMode with rx := [0x0D] }

theorem witness_CommandExchangeReturnsTheLine :
    commanding.phase = .idle ∧ commanding.reqValid = true ∧
    decode commanding.params.operandCap commanding.req commanding.opnd = .ok (.rlSendCmd [0x44, 0x0D]) ∧
    commanding.turns = [] ∧ commanding.rx = [] ++ 0x0D#8 :: [] ∧ 0x0D#8 ∉ ([] : List Byte) ∧
    ([] : List Byte).length ≤ commanding.params.respCap := by decide

/-- `RESP` full already, and one byte more to come before the overflow. -/
theorem witness_OverlongLineHalts :
    ((capThree [0x58]).phase = .readLine .enter ∧ (capThree [0x58]).turns = [] ∧
      (capThree [0x58]).rx = [] ++ 0x58#8 :: [] ∧ 0x58#8 ≠ 0x0D#8 ∧
      (capThree [0x58]).resp.length + ([] : List Byte).length = (capThree [0x58]).params.respCap) ∧
    (({ capThree [0x44, 0x58] with resp := [0x43, 0x4D] } : State).rx = [0x44] ++ 0x58#8 :: [] ∧
      0x0D#8 ∉ [0x44#8] ∧
      ({ capThree [0x44, 0x58] with resp := [0x43, 0x4D] } : State).resp.length + [0x44#8].length =
        ({ capThree [0x44, 0x58] with resp := [0x43, 0x4D] } : State).params.respCap) := by decide

/-- A state for each clause: RX empty with no turn, with the block's, with a timeout that is disabled, with one that is
enabled; and a byte in RX with a timeout. -/
theorem witness_LineWaitsOrTimesOut :
    ((reading .cmd [] []).phase = .readLine .cmd ∧ (reading .cmd [] []).rx = [] ∧ (reading .cmd [] []).turns = []) ∧
    ({ reading .cmd [] [] with turns := [.block] } : State).turns = .block :: [] ∧
    (({ reading .cmd [] [] with turns := [.timeout] } : State).turns = .timeout :: [] ∧
      ({ reading .cmd [] [] with turns := [.timeout] } : State).params.timeoutEnabled = false) ∧
    (({ reading .cmd [] [] with params := { Params.default with timeoutEnabled := true }, turns := [.timeout] } :
      State).params.timeoutEnabled = true ∧
      ({ reading .cmd [] [] with params := { Params.default with timeoutEnabled := true }, turns := [.timeout] } :
      State).turns = .timeout :: []) ∧
    (({ reading .cmd [] [0x41] with turns := [.timeout] } : State).rx ≠ [] ∧
      ({ reading .cmd [] [0x41] with turns := [.timeout] } : State).turns = .timeout :: []) := by decide

/-- Every statement over the steps from any state: a state with a next state, for each kind of turn. -/
theorem witness_steps :
    [[.host 0x20#32 []], [.peerSend 1], [.peerMode .command], [.reset]].map
      (fun ts => seen (fun t => t.turns) { State.reset with turns := ts }) = List.replicate 4 (some []) ∧
    seen (fun t => t.phase) (presented 0x22#32 [] commandMode) = some .idle ∧
    seen (fun t => t.mode) (reading .enter [0x43, 0x4D, 0x44] [0x0D]) = some .command := by decide

/-- What `f` reads of the state after the operation's first step. -/
def ran {α : Type} (f : State → α) (i : Instr) (s : State) : Option α :=
  match exec i s with
  | .next t => some (f t)
  | .fault _ => none
  | .refused _ => none

/-- Each of the four cases of R204, and none of them: an operation that sends no frame, and a press that changes
nothing, both in Command mode. -/
theorem witness_ModeViolationExactlyInItsCases :
    ran (fun t => (t.fault, decide (t.tx = []))) (.msMove 0 0 0) commandMode = some (0b001, false) ∧
    ran (fun t => t.fault) (.rlSendCmd []) State.reset = some 0b001 ∧
    ran (fun t => t.fault) .rlEnterCmd commandMode = some 0b001 ∧
    ran (fun t => t.fault) .rlExitCmd State.reset = some 0b001 ∧
    ran (fun t => t.fault) .hidSetup commandMode = some 0b000 ∧
    ran (fun t => (t.fault, t.tx)) (.msPress 0) commandMode = some (0b000, []) := by decide

theorem witness_KeptContractStaysSafe : contractKept (.rlSendCmd []) commandMode ∧ SafeState commandMode :=
  ⟨fun m h => by cases h; rfl, by decide⟩

/-- The access table's hypothesis, and that of the kept contract: the operation answers a next state. -/
theorem witness_OperationsKeepToTheAccessTable :
    ran (fun t => (t.phase, t.fault)) (.rlSendCmd []) commandMode = some (.readLine .cmd, 0b000) := by decide

/-- A line read whose next step completes it. -/
theorem witness_NoOperationReadsFaultOrResult :
    (reading .cmd [0x41] [0x0D]).phase = .readLine .cmd ∧
      seen (fun t => t.phase) (reading .cmd [0x41] [0x0D]) = some .idle := by decide

/-- A press that fails, and an entry that fails at its CR. -/
theorem witness_ErrorsArePrecise :
    ran (fun t => (t.phase, t.resStatus)) (.kbPress 0x0D) commandMode = some (.idle, 0x01) ∧
    seen (fun t => (t.phase, t.resStatus)) (reading .enter [0x43, 0x4D] [0x0D]) = some (.idle, 0x03) := by decide

/-- A set fault bit and a step that is no reset. -/
theorem witness_FaultBitsAreSticky :
    turnOf (presented 0x22#32 [] { commandMode with fault := 0b001 }) ≠ .reset ∧
    ({ commandMode with fault := 0b001 } : State).fault.getLsbD 0 = true ∧
    seen (fun t => t.fault) (presented 0x22#32 [] { commandMode with fault := 0b001 }) = some 0b001 := by decide

theorem witness_EveryStepKeepsKeysDistinct :
    KeysDistinct full.keys ∧ seen (fun t => t.keys) (presented 0x00006302#32 [] full) = some ⟨4, 5, 0, 7, 8, 9⟩ := by
  decide

/-- A state in the middle of an exchange that has the invariant. -/
theorem witness_EveryStepKeepsTheInvariant : Inv (reading .enter [0x43, 0x4D] [0x44]) ∧
    seen (fun t => t.resp) (reading .enter [0x43, 0x4D] [0x44]) = some [0x43, 0x4D, 0x44] :=
  ⟨⟨by decide, by decide, by decide, by decide, by decide, by decide, by decide,
    by decide, by decide, by decide, by decide, by decide⟩, by decide⟩

end Sys2Proof.Tests
end

/-! PROOFS. KB_PRESS: the word that spells it, what each class of code commits or raises, and the whole next state in
either case (R71, R100 to R103, R201). -/

namespace Sys2Proof.Machine

open Spec

/-- The four bytes of a format K or B word: two reserved zeros, the operand, the opcode (R71). -/
theorem wordBytes_wordKB (o : Op) (x : Byte) : wordBytes (wordKB o x) 0#8 0#8 x o.code := by
  refine ⟨field_eq 24 8 _ _ fun i hi => ?_, field_eq 16 8 _ _ fun i hi => ?_, xField_wordKB o x, opField_wordKB o x⟩
  all_goals
    simp (disch := omega) only [wordKB, BitVec.getLsbD_or, getLsbD_place_above 8, getLsbD_place_above 0,
      Bool.or_false, BitVec.getLsbD_zero]

/-- The contract of a Data-mode call, in the words of R204. -/
theorem contractFault_data (s : State) : contractFault .data s = dataFault s := by
  cases hm : s.mode <;> simp [contractFault, dataFault, hm]

/-! ### The class of a code (R9, R100) -/

/-- The model's modifier bit is the one R9 writes. -/
theorem translate_modifierBit (m : Vector AsciiEntry 128) {code : Byte} (hlo : 128 ≤ code.toNat)
    (hhi : code.toNat < 136) : translate m code = .modifier (modifierBit code) := by
  have hsub : (code - 128#8).toNat = code.toNat - 128 := BitVec.toNat_sub_of_le (BitVec.le_def.mpr hlo)
  rw [translate_modifier m hlo hhi, hsub, modifierBit]

theorem translate_unmapped {m : Vector AsciiEntry 128} {code : Byte} (h : unmapped m code) :
    translate m code = .unmapped := by
  obtain ⟨hlt, husage⟩ := h
  rw [translate_ascii m hlt, if_pos husage]

/-- A key of usage `u` comes from the ASCII range or from the non-printing range, which needs no shift (R100). -/
theorem translate_keyUsage {m : Vector AsciiEntry 128} {code u : Byte} {shift : Bool}
    (h : keyUsage m code u shift) :
    translate m code = .ascii u shift ∨ (translate m code = .nonPrint u ∧ shift = false) := by
  rcases h with ⟨hlo, rfl, hshift⟩ | ⟨hlt, rfl, hne, rfl⟩
  · exact .inr ⟨translate_nonPrint m hlo, hshift⟩
  · exact .inl (by rw [translate_ascii m hlt, if_neg hne])

/-! ### The press part (R103) -/

/-- A modifier never needs a slot. -/
theorem pressKeys_of_modifier {code bit : Byte} {s : State} (h : translate s.asciiMap code = .modifier bit) :
    pressKeys code s = .ok (s.mod ||| bit, s.keys) := by
  simp only [pressKeys, h]

theorem pressKeys_of_unmapped {code : Byte} {s : State} (h : translate s.asciiMap code = .unmapped) :
    pressKeys code s = .error .unmappable := by
  simp only [pressKeys, h]

/-- A key whose usage `SlotPlace` cannot place is refused, with or without shift (R102). -/
theorem pressKeys_of_full {code u : Byte} {shift : Bool} {s : State} (h : keyUsage s.asciiMap code u shift)
    (hfull : slotPlace u s.keys = none) : pressKeys code s = .error .reportFull := by
  rcases translate_keyUsage h with ht | ⟨ht, _⟩
  · simp only [pressKeys, ht, hfull]
  · simp only [pressKeys, ht, hfull]

/-! ### KB_PRESS (R103) -/

theorem exec_kbPress_of_error {code : Byte} {s : State} {e : Status} (h : pressKeys code s = .error e) :
    exec (.kbPress code) s = .next (raise e s) := by
  change execKbPress code s = _
  simp only [execKbPress, h]

/-- A press that succeeds commits the new `MOD` and `KEYS`, sends one frame of them, and completes with OK. -/
theorem exec_kbPress_of_ok {code m : Byte} {k : KeyFile} {s : State} (h : pressKeys code s = .ok (m, k)) :
    exec (.kbPress code) s = .next { s with
      mod := m, keys := k, tx := s.tx ++ keyboardFrame m k, fault := dataFault s,
      resStatus := 0x00#8, resFlag := true, resLine := [], phase := .idle } := by
  change execKbPress code s = _
  simp only [execKbPress, h, commitPress, kbSend_eq, contractFault_data]
  rfl

/-- Settles O13: a modifier's press part cannot fail, so the press commits the bit and transmits. -/
theorem kbPressOfAModifier : Obligations.KbPressOfAModifier := by
  intro s code hlo hhi
  exact ⟨wordBytes_wordKB .kbPress code,
    exec_kbPress_of_ok (pressKeys_of_modifier (translate_modifierBit s.asciiMap hlo hhi))⟩

/-- Settles O16: both errors of the press part end in `raise`, which writes the result latch alone. -/
theorem kbPressErrorsChangeNothing : Obligations.KbPressErrorsChangeNothing := by
  intro s code
  refine ⟨fun hun => ?_, fun u shift hkey habsent hheld => ?_⟩
  · exact exec_kbPress_of_error (pressKeys_of_unmapped (translate_unmapped hun))
  · exact exec_kbPress_of_error (pressKeys_of_full hkey (slotPlace_eq_none.mpr ⟨habsent, hheld⟩))

end Sys2Proof.Machine

/-! PROOFS. How an operation's first step and a line read can end, and what an error among these ends has changed
(R14, R154, R201, R207, R209). -/

namespace Sys2Proof.Machine

/-- Every way an operation's first step can end: it completes with OK, starts a line read, is a KB_WRITE that completes
with its press's error, or raises an error in the state it found (R14, R38). -/
theorem exec_cases {i : Instr} {s t : State} (h : exec i s = .next t) :
    (∃ flag line u, t = complete .ok flag line u) ∨ (∃ k u, t = startLine k u) ∨
      (i.op = .kbWrite ∧ ∃ e u, t = complete e false [] u) ∨ (∃ e, t = raise e s) := by
  cases i with
  | kbPress code =>
    change execKbPress code s = .next t at h
    unfold execKbPress at h
    split at h
    · cases h; exact .inr (.inr (.inr ⟨_, rfl⟩))
    · cases h; exact .inl ⟨_, _, _, rfl⟩
  | kbWrite code =>
    change execKbWrite code s = .next t at h
    unfold execKbWrite at h
    split at h
    · cases h; exact .inr (.inr (.inl ⟨rfl, _, _, rfl⟩))
    · cases h; exact .inl ⟨_, _, _, rfl⟩
  | rlEnterCmd => cases h; exact .inr (.inl ⟨_, _, rfl⟩)
  | rlSendCmd text => cases h; exact .inr (.inl ⟨_, _, rfl⟩)
  | _ => cases h; exact .inl ⟨_, _, _, rfl⟩

/-- A first step of an operation other than KB_WRITE that is over and reports an error has raised it. -/
theorem exec_error_eq_raise {i : Instr} {s t : State} (hi : i.op ≠ .kbWrite) (h : exec i s = .next t)
    (hidle : t.phase = .idle) (herr : t.resStatus ≠ 0x00#8) : ∃ e, t = raise e s := by
  rcases exec_cases h with ⟨flag, line, u, rfl⟩ | ⟨k, u, rfl⟩ | ⟨hw, _⟩ | hraise
  · exact absurd rfl herr
  · exact nomatch hidle
  · exact absurd hw hi
  · exact hraise

/-- The only error at the end of a line is that of an entry whose line is not `CMD` (R154, R156). -/
theorem finishLine_error {k : Exchange} {s : State} (herr : (finishLine k s).resStatus ≠ 0x00#8) :
    finishLine k s = complete .cmdEntryFailed false [] (discardResp s) := by
  cases k with
  | enter =>
    change (finishEnter s).resStatus ≠ 0x00#8 at herr
    rcases finishEnter_cases s with ⟨_, hok⟩ | ⟨_, hfail⟩
    · rw [hok] at herr; exact absurd rfl herr
    · exact hfail
  | cmd => exact absurd rfl herr

/-- A byte that ends a line read with an error was the CR of a failed entry: an overflow halts, and any other byte
leaves the read going on (R38, R205). -/
theorem takeLineByte_error {k k' : Exchange} {b : Byte} {s : State} (hp : s.phase = .readLine k')
    (hidle : (takeLineByte k b s).phase = .idle) (herr : (takeLineByte k b s).resStatus ≠ 0x00#8) :
    takeLineByte k b s = complete .cmdEntryFailed false [] (discardResp s) := by
  rcases takeLineByte_cases k b s with ⟨_, hcr⟩ | ⟨_, _, hover⟩ | ⟨_, _, happ⟩
  · rw [hcr] at herr ⊢; exact finishLine_error herr
  · rw [hover] at hidle; exact nomatch hidle
  · rw [happ] at hidle; exact nomatch hp.symm.trans hidle

/-- A step of the block that ends a line read with an error discards `RESP`, may have taken RX bytes, and writes the
result latch (R154, R207). -/
theorem blockStep_line_error {offered : Bool} {k : Exchange} {s t : State} (hp : s.phase = .readLine k)
    (h : blockStep offered s = .next t) (hidle : t.phase = .idle) (herr : t.resStatus ≠ 0x00#8) :
    ∃ e rest, t = complete e false [] (discardResp { s with rx := rest }) := by
  rcases blockStep_cases h with ⟨hi, _⟩ | ⟨hi, _⟩ | ⟨_, b, rest, _, _, rfl⟩ | ⟨_, _, _, _, _, rfl⟩
  · exact nomatch hp.symm.trans hi
  · exact nomatch hp.symm.trans hi
  · exact ⟨_, rest, takeLineByte_error hp hidle herr⟩
  · exact ⟨.noTerminator, s.rx, rfl⟩

/-- A step that ends a line read with an error was the block's: no other agent writes an error status, and none but
reset ends a line read (R10, R38). -/
theorem step_line_error {k : Exchange} {s t : State} (hp : s.phase = .readLine k) (h : step s = .next t)
    (hidle : t.phase = .idle) (herr : t.resStatus ≠ 0x00#8) :
    ∃ e rest, t = complete e false [] (discardResp { s with turns := s.turns.tail, rx := rest }) := by
  rcases step_cases h with ⟨offered, _, hb⟩ | ⟨_, _, _, _, hi, _⟩ | ⟨_, _, _, rfl⟩ | ⟨_, _, _, rfl⟩ |
    ⟨_, _, _, rfl⟩ | ⟨_, _, rfl⟩
  · exact blockStep_line_error (s := { s with turns := s.turns.tail }) hp hb hidle herr
  · exact nomatch hp.symm.trans hi
  · exact nomatch hp.symm.trans hidle
  · exact nomatch hp.symm.trans hidle
  · exact nomatch hp.symm.trans hidle
  · exact absurd rfl herr

/-- Settles O60: a first step's error is a `raise` in the state it found, and a line read's error is a `complete` that
discards `RESP`. -/
theorem errorsArePrecise : Obligations.ErrorsArePrecise := by
  refine ⟨fun i s t hi h hidle herr => ?_, fun s t k hp h hidle herr => ?_⟩
  · obtain ⟨e, rfl⟩ := exec_error_eq_raise hi h hidle herr
    rfl
  · obtain ⟨e, rest, rfl⟩ := step_line_error hp h hidle herr
    rfl

end Sys2Proof.Machine

/-! PROOFS. The peer's turns (R36, R40). -/

namespace Sys2Proof.Machine

/-- A listed turn is taken from the state without it (R10, log 2). -/
theorem step_of_turn {s : State} {t : Turn} {ts : List Turn} (h : s.turns = t :: ts) :
    step s = takeTurn t { s with turns := ts } := by
  rw [step, nextTurn, h]

/-- While a TX byte is left, the peer can consume it (R40). -/
theorem peerTake_of_lt {s : State} (h : s.txTaken < s.tx.length) :
    peerTake s = .next { s with txTaken := s.txTaken + 1 } := by
  rw [peerTake, if_pos h]

/-- Settles O12: each turn of the peer writes its one field of the environment. -/
theorem peerMovesOnlyTheEnvironment : Obligations.PeerMovesOnlyTheEnvironment := by
  intro s ts b m
  refine ⟨fun hsend => ?_, fun hmode => ?_, fun htake hleft => ?_⟩
  · rw [step_of_turn hsend]; rfl
  · rw [step_of_turn hmode]; rfl
  · rw [step_of_turn htake]; exact peerTake_of_lt hleft

end Sys2Proof.Machine

/-! PROOFS. What an operation's first step writes before it ends, and how it ends: the columns of the access table, said
once for every operation (R14, R24, R37). -/

namespace Sys2Proof.Machine

open Spec

/-! ### The key slots stay distinct (R24, R102, R104) -/

theorem keysDistinct_empty : KeysDistinct KeyFile.empty := fun i _ _ _ => KeyFile.get_empty i

/-- Zeroing the slots of one usage makes no two slots equal but empty ones. -/
theorem keysDistinct_clear {k : KeyFile} (h : KeysDistinct k) (u : Byte) : KeysDistinct (k.clear u) := by
  intro i j hij heq
  simp only [KeyFile.get_clear] at heq ⊢
  by_cases hi : k.get i = u
  · rw [if_pos hi]
  · by_cases hj : k.get j = u
    · rwa [if_pos hj] at heq
    · rw [if_neg hi] at heq ⊢
      exact h i j hij (by rwa [if_neg hj] at heq)

/-- A usage that no slot holds can be put in any slot. -/
theorem keysDistinct_set {k : KeyFile} (h : KeysDistinct k) {u : Byte} (habs : ∀ i, k.get i ≠ u) (p : Fin 6) :
    KeysDistinct (k.set p u) := by
  intro i j hij heq
  by_cases hi : i = p
  · subst hi
    rw [KeyFile.get_set_same, KeyFile.get_set_ne k u hij.symm] at heq
    exact absurd heq.symm (habs j)
  · rw [KeyFile.get_set_ne k u hi] at heq ⊢
    by_cases hj : j = p
    · subst hj
      rw [KeyFile.get_set_same] at heq
      exact absurd heq (habs i)
    · rw [KeyFile.get_set_ne k u hj] at heq
      exact h i j hij heq

theorem pressKeys_keysDistinct {code m : Byte} {k : KeyFile} {s : State} (hp : pressKeys code s = .ok (m, k))
    (h : KeysDistinct s.keys) : KeysDistinct k := by
  rcases pressKeys_keys hp with rfl | ⟨u, j, habs, _, _, rfl⟩
  · exact h
  · exact keysDistinct_set h habs j

theorem releaseKeys_keysDistinct (code : Byte) {s : State} (h : KeysDistinct s.keys) :
    KeysDistinct (releaseKeys code s).2 := by
  rcases releaseKeys_keys code s with hk | ⟨u, hk⟩
  · rwa [hk]
  · rw [hk]; exact keysDistinct_clear h u

/-! ### What an operation may have written (R37) -/

/-- `u` is `s` after writes that the access table gives to operation `i`: registers of its `w` columns, the fault record,
and bytes appended to TX (R37, R204). The key slots stay distinct (R24), and no halting fault is recorded (R202). -/
structure Commits (i : Instr) (s u : State) : Prop where
  frame : ∃ mode mod keys btn fault sent,
    u = { s with mode := mode, mod := mod, keys := keys, btn := btn, fault := fault, tx := s.tx ++ sent }
  mode : i ≠ .rlExitCmd → u.mode = s.mode
  keyboard : writesKeys i = false → u.mod = s.mod ∧ u.keys = s.keys
  distinct : KeysDistinct s.keys → KeysDistinct u.keys
  buttons : writesBtn i = false → u.btn = s.btn
  fault : u.fault = s.fault ∨ u.fault = s.fault ||| 0b001#3

theorem Commits.trans {i : Instr} {s u v : State} (h : Commits i s u) (h' : Commits i u v) : Commits i s v where
  frame := by
    obtain ⟨_, _, _, _, _, sent, rfl⟩ := h.frame
    obtain ⟨_, _, _, _, _, sent', rfl⟩ := h'.frame
    exact ⟨_, _, _, _, _, sent ++ sent', by rw [List.append_assoc]⟩
  mode hi := (h'.mode hi).trans (h.mode hi)
  keyboard hi := ⟨(h'.keyboard hi).1.trans (h.keyboard hi).1, (h'.keyboard hi).2.trans (h.keyboard hi).2⟩
  distinct hd := h'.distinct (h.distinct hd)
  buttons hi := (h'.buttons hi).trans (h.buttons hi)
  fault := by
    rcases h.fault with hu | hu <;> rcases h'.fault with hv | hv <;> rw [hv, hu]
    · exact .inl rfl
    · exact .inr rfl
    · exact .inr rfl
    · rw [BitVec.or_assoc, BitVec.or_self]; exact .inr rfl

theorem commits_sendBytes (i : Instr) (bytes : List Byte) (s : State) : Commits i s (sendBytes bytes s) where
  frame := ⟨_, _, _, _, _, bytes, rfl⟩
  mode _ := rfl
  keyboard _ := ⟨rfl, rfl⟩
  distinct := id
  buttons _ := rfl
  fault := .inl rfl

theorem commits_refl (i : Instr) (s : State) : Commits i s s := by
  have h := commits_sendBytes i [] s
  rwa [sendBytes, List.append_nil] at h

theorem commits_requireMode (i : Instr) (m : RadioMode) (s : State) : Commits i s (requireMode m s) where
  frame := ⟨_, _, _, _, _, [], by rw [requireMode_eq, List.append_nil]⟩
  mode _ := requireMode_mode m s
  keyboard _ := ⟨requireMode_mod m s, requireMode_keys m s⟩
  distinct := by rw [requireMode_keys]; exact id
  buttons _ := requireMode_btn m s
  fault := by
    rw [requireMode_fault, contractFault]
    split
    · exact .inl rfl
    · exact .inr rfl

/-- The contract check and then the frame (R151). `facadeSend`, `kbSend` and `msSend` are sends of this kind. -/
theorem commits_sendFramed (i : Instr) (p : List Byte) (s : State) : Commits i s (sendFramed p s) :=
  (commits_requireMode i .data s).trans (commits_sendBytes i (frame p) _)

/-- The commit of a keyboard operation (R103 to R105). -/
theorem commits_keys {i : Instr} (hi : writesKeys i = true) (m : Byte) (k : KeyFile) (s : State)
    (hk : KeysDistinct s.keys → KeysDistinct k) : Commits i s { s with mod := m, keys := k } where
  frame := ⟨_, _, _, _, _, [], by rw [List.append_nil]⟩
  mode _ := rfl
  keyboard hn := nomatch hi.symm.trans hn
  distinct := hk
  buttons _ := rfl
  fault := .inl rfl

theorem commits_setButtons {i : Instr} (hi : writesBtn i = true) (n : Byte) (s : State) :
    Commits i s (setButtons n s) where
  frame := ⟨_, _, _, _, _, [], by rw [setButtons, List.append_nil]⟩
  mode _ := rfl
  keyboard _ := ⟨rfl, rfl⟩
  distinct := id
  buttons hn := nomatch hi.symm.trans hn
  fault := .inl rfl

/-- A change of the registers, then a keyboard report of them (R101). -/
theorem commits_keys_kbSend {i : Instr} (hi : writesKeys i = true) (m : Byte) (k : KeyFile) (s : State)
    (hk : KeysDistinct s.keys → KeysDistinct k) : Commits i s (kbSend { s with mod := m, keys := k }) :=
  (commits_keys hi m k s hk).trans (commits_sendFramed i _ _)

theorem commits_commitPress {i : Instr} (hi : writesKeys i = true) {code m : Byte} {k : KeyFile} {s : State}
    (hp : pressKeys code s = .ok (m, k)) : Commits i s (commitPress m k s) :=
  commits_keys_kbSend hi m k s (pressKeys_keysDistinct hp)

theorem commits_releasePart {i : Instr} (hi : writesKeys i = true) (code : Byte) (s : State) :
    Commits i s (releasePart code s) :=
  commits_keys_kbSend hi _ _ s (releaseKeys_keysDistinct code)

theorem commits_sendButtons {i : Instr} (hi : writesBtn i = true) (n : Byte) (s : State) :
    Commits i s (sendButtons n s) :=
  (commits_setButtons hi n s).trans (commits_sendFramed i _ _)

theorem commits_updateButtons {i : Instr} (hi : writesBtn i = true) (n : Byte) (s : State) :
    Commits i s (updateButtons n s) := by
  unfold updateButtons
  split
  · exact commits_refl i s
  · exact commits_sendButtons hi n s

/-- RL_EXIT_CMD alone writes `MODE` in its first step (R157). -/
theorem commits_exit (s : State) : Commits .rlExitCmd s { s with mode := .data } where
  frame := ⟨_, _, _, _, _, [], by rw [List.append_nil]⟩
  mode hi := absurd rfl hi
  keyboard _ := ⟨rfl, rfl⟩
  distinct := id
  buttons _ := rfl
  fault := .inl rfl

/-! ### The first step of an operation (R14, R38) -/

/-- How the operation `i` that has written `u` ends its first step in `t`: it completes, with the flag set for status OK
alone, or starts its line read, or raises an error (R14, R34). -/
inductive Ends (i : Instr) (u : State) : State → Prop where
  | complete (st : Status) (flag : Bool) (h : flag = true → st = .ok) : Ends i u (complete st flag [] u)
  | line (k : Exchange) (h : i.op = .rlEnterCmd ∨ i.op = .rlSendCmd) : Ends i u (startLine k u)
  | raise (e : Status) : Ends i u (raise e u)

/-- Success ends an operation with status OK, whatever the flag says. -/
theorem Ends.ok {i : Instr} (u : State) (flag : Bool := true) : Ends i u (Machine.complete .ok flag [] u) :=
  .complete .ok flag fun _ => rfl

/-- All that the first step of an operation can do: the writes the access table gives it, and one of the ends. -/
theorem exec_commits {i : Instr} {s t : State} (h : exec i s = .next t) : ∃ u, Commits i s u ∧ Ends i u t := by
  cases i with
  | kbPress code =>
    cases hp : pressKeys code s with
    | error e =>
      rw [exec_kbPress_of_error hp] at h
      cases h
      exact ⟨s, commits_refl _ s, .raise e⟩
    | ok mk =>
      change execKbPress code s = _ at h
      simp only [execKbPress, hp] at h
      cases h
      exact ⟨_, commits_commitPress rfl hp, .ok _⟩
  | kbRelease code => cases h; exact ⟨_, commits_releasePart rfl code s, .ok _⟩
  | kbReleaseAll =>
    cases h
    exact ⟨_, commits_keys_kbSend rfl _ _ s fun _ => keysDistinct_empty, .ok _⟩
  | kbWrite code =>
    change execKbWrite code s = _ at h
    cases hp : pressKeys code s with
    | error e =>
      simp only [execKbWrite, hp] at h
      cases h
      exact ⟨_, commits_releasePart rfl code s, .complete e false nofun⟩
    | ok mk =>
      simp only [execKbWrite, hp] at h
      cases h
      exact ⟨_, (commits_commitPress rfl hp).trans (commits_releasePart rfl code _), .ok _⟩
  | msMove dx dy dw => cases h; exact ⟨_, commits_sendFramed _ _ s, .ok _⟩
  | msClick mask =>
    cases h
    exact ⟨_, (commits_sendButtons rfl _ s).trans (commits_sendButtons rfl _ _), .ok _⟩
  | msPress mask => cases h; exact ⟨_, commits_updateButtons rfl _ s, .ok _⟩
  | msRelease mask => cases h; exact ⟨_, commits_updateButtons rfl _ s, .ok _⟩
  | msIsPressed mask => cases h; exact ⟨s, commits_refl _ s, .ok s _⟩
  | rlEnterCmd =>
    cases h
    exact ⟨_, ((commits_requireMode _ .data s).trans (commits_sendBytes _ Config.entryPrefix _)).trans
      (commits_sendBytes _ Config.escapeSeq _), .line .enter (.inl rfl)⟩
  | rlSendCmd text =>
    cases h
    exact ⟨_, (commits_requireMode _ .command s).trans (commits_sendBytes _ text _), .line .cmd (.inr rfl)⟩
  | rlExitCmd =>
    cases h
    exact ⟨_, ((commits_requireMode _ .command s).trans (commits_sendBytes _ Config.exitSeq _)).trans
      (commits_exit _), .ok _⟩
  | rlSendReport bytes => cases h; exact ⟨_, commits_sendFramed _ bytes s, .ok _⟩
  | rlSendControl flags bytes => cases h; exact ⟨_, commits_sendBytes _ bytes s, .ok _⟩
  | hidSendReport id data => cases h; exact ⟨_, commits_sendFramed _ (id :: data) s, .ok _⟩
  | hidGetInterface => cases h; exact ⟨s, commits_refl _ s, .ok s⟩
  | hidGetDescriptor => cases h; exact ⟨s, commits_refl _ s, .ok s⟩
  | hidSetup => cases h; exact ⟨s, commits_refl _ s, .ok s⟩

/-- The ends write `RESP`, `PHASE` and the result latch, and nothing else (R14, R152). -/
theorem Ends.frame {i : Instr} {u t : State} (h : Ends i u t) : ∃ resp phase status flag line,
    t = { u with resp := resp, phase := phase, resStatus := status, resFlag := flag, resLine := line } := by
  cases h <;> exact ⟨_, _, _, _, _, rfl⟩

/-- An end that starts no line read leaves `RESP` and leaves the block Idle (R33). -/
theorem Ends.idle {i : Instr} {u t : State} (h : Ends i u t) (h1 : i.op ≠ .rlEnterCmd) (h2 : i.op ≠ .rlSendCmd) :
    t.resp = u.resp ∧ t.phase = .idle := by
  cases h with
  | complete st flag _ => exact ⟨rfl, rfl⟩
  | line k hi => exact absurd hi (not_or.mpr ⟨h1, h2⟩)
  | raise e => exact ⟨rfl, rfl⟩

end Sys2Proof.Machine

/-! PROOFS. The state invariant `Inv` through every step of every agent (R20, R24, R28, R34, R41, R156, R200, R202,
R203). -/

namespace Sys2Proof.Machine

open Spec

/-! ### The invariant and the fields it does not speak of -/

theorem inv_turns {s : State} (h : Inv s) (ts : List Turn) : Inv { s with turns := ts } := { h with }

theorem inv_rx {s : State} (h : Inv s) (rx : List Byte) : Inv { s with rx := rx } := { h with }

theorem inv_radioMode {s : State} (h : Inv s) (m : RadioMode) : Inv { s with radioMode := m } := { h with }

theorem inv_mode {s : State} (h : Inv s) (m : RadioMode) : Inv { s with mode := m } := { h with }

/-! ### How an operation ends -/

/-- The halting bits are those that MODE_VIOLATION does not touch (R31, R203). -/
theorem getLsbD_or_modeViolation (f : BitVec 3) {n : Nat} (hn : n ≠ 0) :
    (f ||| 0b001#3).getLsbD n = f.getLsbD n := by
  have h1 : (0b001#3).getLsbD n = false := by
    obtain _ | _ | _ | n := n
    · exact absurd rfl hn
    · rfl
    · rfl
    · exact BitVec.getLsbD_of_ge _ _ (by omega)
  rw [BitVec.getLsbD_or, h1, Bool.or_false]

/-- What an operation writes before it ends keeps the invariant. -/
theorem Commits.inv {i : Instr} {s u : State} (hc : Commits i s u) (h : Inv s) : Inv u := by
  have hd := hc.distinct h.keysDistinct
  have hbit : ∀ n, n ≠ 0 → u.fault.getLsbD n = s.fault.getLsbD n := by
    intro n hn
    rcases hc.fault with hf | hf <;> rw [hf]
    exact getLsbD_or_modeViolation s.fault hn
  obtain ⟨_, _, _, _, fault, sent, rfl⟩ := hc.frame
  exact { h with
    keysDistinct := hd
    haltedIff := by rw [hbit 1 (by decide), hbit 2 (by decide)]; exact h.haltedIff
    takenSent := by
      rw [List.length_append]
      exact Nat.le_add_right_of_le h.takenSent }

/-- No halting fault is recorded while the block is not Halted (R203). -/
theorem inv_no_halting_fault {s : State} (h : Inv s) (hp : s.phase ≠ .halted) :
    ¬ (s.fault.getLsbD 1 = true ∨ s.fault.getLsbD 2 = true) := mt h.haltedIff.mpr hp

theorem Status.code_le (st : Status) : st.code.toNat ≤ 4 := by cases st <;> decide

/-- A completion keeps the invariant if `RESP` is discarded and the line it hands over could have been in `RESP`
(R28, R34, R156). -/
theorem inv_complete {s : State} (h : Inv s) (hp : s.phase ≠ .halted) (hresp : s.resp = []) {st : Status}
    {flag : Bool} {line : List Byte} (hflag : flag = true → st = .ok) (hcr : Config.cr ∉ line)
    (hfit : line.length ≤ s.params.respCap) : Inv (complete st flag line s) :=
  have hno := inv_no_halting_fault h hp
  { h with
    resLineNoCr := hcr
    resLineFits := hfit
    idleNoResp := fun _ => hresp
    opndFits := fun hv _ => h.opndFits hv hp
    requestIdle := fun _ => rfl
    haltedIff := iff_of_false nofun hno
    statusCode := st.code_le
    flagOk := fun hf => by rw [hflag hf]; rfl }

/-- A completion without a line. -/
theorem inv_complete_nil {s : State} (h : Inv s) (hp : s.phase ≠ .halted) (hresp : s.resp = []) {st : Status}
    {flag : Bool} (hflag : flag = true → st = .ok) : Inv (complete st flag [] s) :=
  inv_complete h hp hresp hflag List.not_mem_nil (Nat.zero_le _)

theorem inv_raise {s : State} (h : Inv s) (hp : s.phase = .idle) (e : Status) : Inv (raise e s) :=
  have hne : s.phase ≠ .halted := by rw [hp]; exact nofun
  have hno := inv_no_halting_fault h hne
  { h with
    idleNoResp := fun _ => h.idleNoResp hp
    opndFits := fun hv _ => h.opndFits hv hne
    requestIdle := fun _ => rfl
    haltedIff := iff_of_false nofun hno
    statusCode := e.code_le
    flagOk := nofun }

/-- A line read starts with `RESP` empty and no request waiting (R152). -/
theorem inv_startLine {s : State} (h : Inv s) (hp : s.phase = .idle) (hv : s.reqValid = false) (k : Exchange) :
    Inv (startLine k s) :=
  have hne : s.phase ≠ .halted := by rw [hp]; exact nofun
  have hno := inv_no_halting_fault h hne
  { h with
    respFits := Nat.zero_le _
    respNoCr := List.not_mem_nil
    idleNoResp := nofun
    opndFits := fun hv _ => h.opndFits hv hne
    requestIdle := fun hv' => nomatch hv.symm.trans hv'
    haltedIff := iff_of_false nofun hno }

theorem Ends.inv {i : Instr} {u t : State} (he : Ends i u t) (h : Inv u) (hp : u.phase = .idle)
    (hv : u.reqValid = false) : Inv t := by
  cases he with
  | complete st flag hflag => exact inv_complete_nil h (by rw [hp]; exact nofun) (h.idleNoResp hp) hflag
  | line k _ => exact inv_startLine h hp hv k
  | raise e => exact inv_raise h hp e

/-- The first step of an operation keeps the invariant (R14). -/
theorem exec_inv {i : Instr} {s t : State} (h : Inv s) (hp : s.phase = .idle) (hv : s.reqValid = false)
    (he : exec i s = .next t) : Inv t := by
  obtain ⟨u, hc, hend⟩ := exec_commits he
  have hu : u.phase = s.phase ∧ u.reqValid = s.reqValid := by
    obtain ⟨_, _, _, _, _, _, rfl⟩ := hc.frame
    exact ⟨rfl, rfl⟩
  exact hend.inv (hc.inv h) (hu.1.trans hp) (hu.2.trans hv)

/-! ### The request and the line read (R38) -/

/-- A request that decodes is accepted with its operands in the buffer (R32). -/
theorem inv_accept {s : State} (h : Inv s) {i : Instr} (hd : decode s.params.operandCap s.req s.opnd = .ok i) :
    Inv { s with reqValid := false } :=
  { h with
    opndFits := fun _ _ => (decode_eq_ok.mp hd).1
    requestIdle := nofun }

/-- A halt with its fault recorded keeps the invariant, no request being left (R202, R203). -/
theorem inv_halt {s : State} (h : Inv s) {valid : Bool} (hv : valid = false) {f : BitVec 3}
    (hf : f.getLsbD 1 = true ∨ f.getLsbD 2 = true) :
    Inv { s with reqValid := valid, fault := f, phase := .halted } :=
  { h with
    idleNoResp := nofun
    opndFits := fun _ hne => absurd rfl hne
    requestIdle := fun hv' => nomatch hv.symm.trans hv'
    haltedIff := iff_of_true rfl hf }

/-- Bit `n` of the fault record is set once it is recorded. -/
theorem getLsbD_or_of_right {f g : BitVec 3} {n : Nat} (h : g.getLsbD n = true) : (f ||| g).getLsbD n = true := by
  rw [BitVec.getLsbD_or, h, Bool.or_true]

theorem inv_discardResp {s : State} (h : Inv s) : Inv (discardResp s) :=
  { h with
    respFits := Nat.zero_le _
    respNoCr := List.not_mem_nil
    idleNoResp := fun _ => rfl }

theorem inv_timeoutLine {s : State} (h : Inv s) (hp : s.phase ≠ .halted) : Inv (timeoutLine s) :=
  inv_complete_nil (inv_discardResp h) hp rfl nofun

/-- The end of a line: what was in `RESP` is no longer than `RESP_CAP` and holds no CR, so the host may have it (R154,
R156). -/
theorem inv_finishLine {s : State} (h : Inv s) (hp : s.phase ≠ .halted) (k : Exchange) : Inv (finishLine k s) := by
  have hd := inv_discardResp h
  cases k with
  | enter =>
    change Inv (finishEnter s)
    unfold finishEnter
    split
    · exact inv_complete_nil (inv_mode hd .command) hp rfl fun _ => rfl
    · exact inv_complete_nil hd hp rfl nofun
  | cmd => exact inv_complete hd hp rfl (fun _ => rfl) h.respNoCr h.respFits

/-- One byte of a line read: `RESP` takes it only if it is no CR and there is room (R28, R205). -/
theorem inv_takeLineByte {s : State} {k : Exchange} (h : Inv s) (hp : s.phase = .readLine k) (b : Byte) :
    Inv (takeLineByte k b s) := by
  have hv : s.reqValid = false := by
    by_contra hv
    exact nomatch hp.symm.trans (h.requestIdle (Bool.eq_true_of_not_eq_false hv))
  rcases takeLineByte_cases k b s with ⟨_, heq⟩ | ⟨_, _, heq⟩ | ⟨hcr, hlen, heq⟩ <;> rw [heq]
  · exact inv_finishLine h (by rw [hp]; exact nofun) k
  · exact inv_halt h hv (.inl (getLsbD_or_of_right rfl))
  · exact { h with
      respFits := by
        rw [List.length_append]
        exact Nat.lt_of_le_of_ne h.respFits hlen
      respNoCr := by
        rw [List.mem_append, List.mem_singleton]
        exact not_or.mpr ⟨h.respNoCr, fun hb => hcr hb.symm⟩
      idleNoResp := fun hi => nomatch hp.symm.trans hi }

theorem blockStep_inv {offered : Bool} {s t : State} (h : Inv s) (hb : blockStep offered s = .next t) : Inv t := by
  rcases blockStep_cases hb with ⟨hp, _, i, hd, he⟩ | ⟨_, _, _, rfl⟩ | ⟨k, b, rest, hp, _, rfl⟩ | ⟨k, hp, _, _, _, rfl⟩
  · exact exec_inv (inv_accept h hd) hp rfl he
  · exact inv_halt h rfl (.inr (getLsbD_or_of_right rfl))
  · exact inv_takeLineByte (inv_rx h rest) hp b
  · exact inv_timeoutLine h (by rw [hp]; exact nofun)

/-! ### The other agents (R40, R41, R230) -/

theorem inv_hostPresent {s : State} (h : Inv s) (hp : s.phase = .idle) (req : Word) (opnd : List Byte) :
    Inv { s with req := req, opnd := opnd, reqValid := true } :=
  { h with
    opndFits := nofun
    requestIdle := fun _ => hp }

theorem inv_peerTake {s : State} (h : Inv s) (hlt : s.txTaken < s.tx.length) :
    Inv { s with txTaken := s.txTaken + 1 } := { h with takenSent := hlt }

/-- Reset gives every clause but that on the streams, which it keeps (R39, R232). -/
theorem inv_applyReset {s : State} (h : s.txTaken ≤ s.tx.length) : Inv (applyReset s) where
  keysDistinct := keysDistinct_empty
  respFits := Nat.zero_le _
  respNoCr := List.not_mem_nil
  resLineNoCr := List.not_mem_nil
  resLineFits := Nat.zero_le _
  idleNoResp _ := rfl
  opndFits _ _ := Nat.zero_le _
  requestIdle := nofun
  haltedIff := iff_of_false nofun (show ¬ ((0#3).getLsbD 1 = true ∨ (0#3).getLsbD 2 = true) by decide)
  statusCode := Nat.zero_le _
  flagOk := nofun
  takenSent := h

/-- Settles O55: each agent's move keeps the invariant, and `step` takes one of them. -/
theorem everyStepKeepsTheInvariant : Obligations.EveryStepKeepsTheInvariant := by
  intro s s' h hs
  rcases step_cases hs with ⟨_, _, hb⟩ | ⟨ts, req, opnd, _, hp, _, rfl⟩ | ⟨ts, b, _, rfl⟩ | ⟨ts, _, hlt, rfl⟩ |
    ⟨ts, m, _, rfl⟩ | ⟨ts, _, rfl⟩
  · exact blockStep_inv (inv_turns h _) hb
  · exact inv_hostPresent (inv_turns h ts) hp req opnd
  · exact inv_rx (inv_turns h ts) _
  · exact inv_peerTake (inv_turns h ts) hlt
  · exact inv_radioMode (inv_turns h ts) m
  · exact inv_applyReset h.takenSent

/-- Settles O56: the state after the power-on reset is what a reset makes of it. -/
theorem resetHasTheInvariant : Obligations.ResetHasTheInvariant :=
  inv_applyReset (s := State.reset) (Nat.le_refl 0)

end Sys2Proof.Machine

/-! PROOFS. The decoder read backwards: which requests decode, and what request an instruction that was decoded encodes
to (R32, R71, R77 to R79). -/

namespace Sys2Proof

/-! ### A word is known by its fields (R70, R71) -/

theorem word_ext_reservedN {a b : Word} (hop : opField a = opField b) (hr : reservedN a = reservedN b) : a = b := by
  have hop := congrArg BitVec.toNat hop
  have hr := congrArg BitVec.toNat hr
  simp only [opField, reservedN, BitVec.extractLsb'_toNat, Nat.shiftRight_eq_div_pow] at hop hr
  apply BitVec.eq_of_toNat_eq
  omega

theorem word_ext_reservedKB {a b : Word} (hop : opField a = opField b) (hx : xField a = xField b)
    (hr : reservedKB a = reservedKB b) : a = b := by
  have hop := congrArg BitVec.toNat hop
  have hx := congrArg BitVec.toNat hx
  have hr := congrArg BitVec.toNat hr
  simp only [opField, xField, reservedKB, BitVec.extractLsb'_toNat, Nat.shiftRight_eq_div_pow] at hop hx hr
  apply BitVec.eq_of_toNat_eq
  omega

theorem wordN_of_fields {o : Op} {req : Word} (hop : o.code = opField req) (hr : reservedN req = 0#24) :
    wordN o = req :=
  word_ext_reservedN ((opField_wordN o).trans hop) ((reservedN_wordN o).trans hr.symm)

theorem wordKB_of_fields {o : Op} {req : Word} (hop : o.code = opField req) (hr : reservedKB req = 0#16) :
    wordKB o (xField req) = req :=
  word_ext_reservedKB ((opField_wordKB o _).trans hop) (xField_wordKB o _) ((reservedKB_wordKB o _).trans hr.symm)

theorem wordM_of_fields {o : Op} {req : Word} (hop : o.code = opField req) :
    wordM o (xField req) (dyField req) (dwField req) = req := by
  have h := wordOfBus_fields req
  rwa [← hop] at h

theorem wordS_of_fields {o : Op} {req : Word} {opnd : List Byte} (hop : o.code = opField req)
    (hlen : lenField req = opnd.length) : wordS o (xField req) opnd = req := by
  have hlt : opnd.length < 65536 := hlen ▸ (req.extractLsb' 16 16).isLt
  have hhigh : reservedKB (wordS o (xField req) opnd) = reservedKB req :=
    BitVec.eq_of_toNat_eq ((lenField_wordS o _ opnd hlt).trans hlen.symm)
  exact word_ext_reservedKB ((opField_wordS o _ opnd).trans hop) (xField_wordS o _ opnd) hhigh

/-! ### The checks of R78 -/

theorem checkLength_eq_none {cap : Fin 65536} {req : Word} {opnd : List Byte} :
    checkLength cap req opnd = none ↔ lenField req = opnd.length ∧ lenField req ≤ cap.val := by
  unfold checkLength
  split_ifs with hlen hcap
  · exact iff_of_false nofun fun h => hlen h.1
  · exact iff_of_false nofun fun h => Nat.not_le.mpr hcap h.2
  · exact iff_of_true rfl ⟨not_not.mp hlen, Nat.not_lt.mp hcap⟩

/-- What a request that passes the checks of its format has (R78). -/
structure Passes (f : Format) (cap : Fin 65536) (req : Word) (opnd : List Byte) : Prop where
  n : f = .n → reservedN req = 0#24
  kb : f = .k ∨ f = .b → reservedKB req = 0#16
  x : f = .s0 → xField req = 0#8
  len : f = .s0 ∨ f = .s → lenField req = opnd.length ∧ lenField req ≤ cap.val

theorem formatCheck_eq_none {f : Format} {cap : Fin 65536} {req : Word} {opnd : List Byte} :
    formatCheck f cap req opnd = none ↔ Passes f cap req opnd := by
  constructor
  · intro h
    cases f with
    | n => exact ⟨fun _ => by simpa [formatCheck] using h, by simp, by simp, by simp⟩
    | k => exact ⟨by simp, fun _ => by simpa [formatCheck] using h, by simp, by simp⟩
    | b => exact ⟨by simp, fun _ => by simpa [formatCheck] using h, by simp, by simp⟩
    | m => exact ⟨by simp, by simp, by simp, by simp⟩
    | s0 =>
      simp only [formatCheck] at h
      split_ifs at h with hx
      exact ⟨by simp, by simp, fun _ => not_not.mp hx, fun _ => checkLength_eq_none.mp h⟩
    | s => exact ⟨by simp, by simp, by simp, fun _ => checkLength_eq_none.mp h⟩
  · intro h
    cases f with
    | n => simp [formatCheck, h.n rfl]
    | k => simp [formatCheck, h.kb (.inl rfl)]
    | b => simp [formatCheck, h.kb (.inr rfl)]
    | m => rfl
    | s0 => simpa [formatCheck, h.x rfl] using checkLength_eq_none.mpr (h.len (.inl rfl))
    | s => exact checkLength_eq_none.mpr (h.len (.inr rfl))

/-! ### From a decoded instruction back to the request -/

theorem op_assembleOperands (o : Op) (req : Word) (opnd : List Byte) : (assembleOperands o req opnd).op = o := by
  cases o <;> rfl

theorem wellFormed_assembleOperands (o : Op) (req : Word) {cap : Fin 65536} {opnd : List Byte}
    (h : opnd.length ≤ cap.val) : (assembleOperands o req opnd).wellFormed cap = true := by
  cases o with
  | rlSendCmd | rlSendReport | rlSendControl | hidSendReport => exact operandFits_iff.mpr h
  | _ => rfl

/-- Each format's fields are all of the word that its checks leave free (R71). -/
theorem encode_assembleOperands {o : Op} {cap : Fin 65536} {req : Word} {opnd : List Byte}
    (hop : o.code = opField req) (hp : Passes o.format cap req opnd) :
    encode (assembleOperands o req opnd) = ⟨req, if o.format = .s ∨ o.format = .s0 then opnd else []⟩ := by
  cases o with
  | kbReleaseAll | rlEnterCmd | rlExitCmd | hidGetInterface | hidGetDescriptor | hidSetup =>
    exact congrArg (Request.mk · []) (wordN_of_fields hop (hp.n rfl))
  | kbPress | kbRelease | kbWrite =>
    exact congrArg (Request.mk · []) (wordKB_of_fields hop (hp.kb (.inl rfl)))
  | msClick | msPress | msRelease | msIsPressed =>
    exact congrArg (Request.mk · []) (wordKB_of_fields hop (hp.kb (.inr rfl)))
  | msMove => exact congrArg (Request.mk · []) (wordM_of_fields hop)
  | rlSendCmd | rlSendReport =>
    have hw := wordS_of_fields hop (hp.len (.inl rfl)).1
    rw [hp.x rfl] at hw
    exact congrArg (Request.mk · opnd) hw
  | rlSendControl | hidSendReport =>
    exact congrArg (Request.mk · opnd) (wordS_of_fields hop (hp.len (.inr rfl)).1)

/-- Settles O2: a request that decodes has passed the checks of its format, so its fields are those the encoder
writes. -/
theorem encodeOfDecodeIsTheRequest : Obligations.EncodeOfDecodeIsTheRequest := by
  intro cap req opnd i h
  obtain ⟨hfit, o, ho, hc, rfl⟩ := decode_eq_ok.mp h
  rw [op_assembleOperands]
  exact ⟨wellFormed_assembleOperands o req hfit,
    encode_assembleOperands (Op.code_of_ofByte? ho) (formatCheck_eq_none.mp hc), hfit⟩

/-! ### Which requests are illegal (R79) -/

/-- A request is refused for its operands' length, for its opcode, or by a check of its format. -/
theorem decode_eq_error {cap : Fin 65536} {req : Word} {opnd : List Byte} :
    (∃ e, decode cap req opnd = .error e) ↔
      cap.val < opnd.length ∨ Op.ofByte? (opField req) = none ∨
        ∃ o, Op.ofByte? (opField req) = some o ∧ ¬ Passes o.format cap req opnd := by
  have hex : (∃ e, decode cap req opnd = .error e) ↔ ¬ ∃ i, decode cap req opnd = .ok i := by
    cases decode cap req opnd <;> simp
  rcases Nat.lt_or_ge cap.val opnd.length with hlong | hfit
  · exact iff_of_true ⟨_, decode_of_overlong hlong⟩ (.inl hlong)
  · have hnot := Nat.not_lt.mpr hfit
    cases ho : Op.ofByte? (opField req) with
    | none => simp [hex, decode_eq_ok, ho]
    | some o => simp [hex, decode_eq_ok, ho, formatCheck_eq_none, hfit, hnot]

/-- The ways to fail the checks of R78, as R79 lists them. -/
theorem not_passes_iff {f : Format} {cap : Fin 65536} {req : Word} {opnd : List Byte} :
    ¬ Passes f cap req opnd ↔
      (f = .n ∧ req.extractLsb' 8 24 ≠ 0#24) ∨ ((f = .k ∨ f = .b) ∧ req.extractLsb' 16 16 ≠ 0#16) ∨
      (f = .s0 ∧ req.extractLsb' 8 8 ≠ 0#8) ∨
      ((f = .s0 ∨ f = .s) ∧
        ((req.extractLsb' 16 16).toNat ≠ opnd.length ∨ cap.val < (req.extractLsb' 16 16).toNat)) := by
  have hconj : Passes f cap req opnd ↔
      (f = .n → req.extractLsb' 8 24 = 0#24) ∧ (f = .k ∨ f = .b → req.extractLsb' 16 16 = 0#16) ∧
      (f = .s0 → req.extractLsb' 8 8 = 0#8) ∧
      (f = .s0 ∨ f = .s →
        (req.extractLsb' 16 16).toNat = opnd.length ∧ (req.extractLsb' 16 16).toNat ≤ cap.val) :=
    ⟨fun ⟨hn, hkb, hx, hlen⟩ => ⟨hn, hkb, hx, hlen⟩, fun ⟨hn, hkb, hx, hlen⟩ => ⟨hn, hkb, hx, hlen⟩⟩
  simp only [hconj, not_and_or, Classical.not_imp, Nat.not_le, ne_eq]

/-- The opcodes of R77. -/
theorem ofByte?_eq_none {b : Byte} : Op.ofByte? b = none ↔ b ∉ Op.all.map Op.code := by
  simp only [Op.ofByte?, List.find?_eq_none, List.mem_map, not_exists, not_and, beq_iff_eq]

/-! The opcodes of each format, written out from R77. -/

theorem code_mem_all (o : Op) : o.code ∈ Op.all.map Op.code := by cases o <;> decide

theorem code_mem_formatN (o : Op) :
    o.code ∈ [0x03#8, 0x20#8, 0x22#8, 0x31#8, 0x32#8, 0x33#8] ↔ o.format = .n := by cases o <;> decide

theorem code_mem_formatKB (o : Op) :
    o.code ∈ [0x01#8, 0x02#8, 0x04#8, 0x11#8, 0x12#8, 0x13#8, 0x14#8] ↔ o.format = .k ∨ o.format = .b := by
  cases o <;> decide

theorem code_mem_formatS0 (o : Op) : o.code ∈ [0x21#8, 0x23#8] ↔ o.format = .s0 := by cases o <;> decide

theorem code_mem_formatS (o : Op) :
    o.code ∈ [0x21#8, 0x23#8, 0x24#8, 0x30#8] ↔ o.format = .s0 ∨ o.format = .s := by cases o <;> decide

/-- Settles O3: an opcode of R77 leaves the checks of its format, and each check is one case of R79. -/
theorem decodeRejectsExactlyTheIllegalRequests : Obligations.DecodeRejectsExactlyTheIllegalRequests := by
  intro cap req opnd
  rw [decode_eq_error]
  cases ho : Op.ofByte? (opField req) with
  | none => exact iff_of_true (.inr (.inl rfl)) (.inl (ofByte?_eq_none.mp ho))
  | some o =>
    have hcode : req.extractLsb' 0 8 = o.code := (Op.code_of_ofByte? ho).symm
    have hall := not_not_intro (code_mem_all o)
    have hsome : (∃ p, some o = some p ∧ ¬ Passes p.format cap req opnd) ↔ ¬ Passes o.format cap req opnd := by
      simp only [Option.some.injEq, exists_eq_left']
    rw [hsome, not_passes_iff, hcode, code_mem_formatN, code_mem_formatKB, code_mem_formatS0, code_mem_formatS]
    constructor
    · rintro (hcap | hnone | hn | hkb | hx | hlen)
      · exact .inr (.inr (.inr (.inr (.inr hcap))))
      · exact nomatch hnone
      · exact .inr (.inl hn)
      · exact .inr (.inr (.inl hkb))
      · exact .inr (.inr (.inr (.inl hx)))
      · exact .inr (.inr (.inr (.inr (.inl hlen))))
    · rintro (hop | hn | hkb | hx | hlen | hcap)
      · exact absurd hop hall
      · exact .inr (.inr (.inl hn))
      · exact .inr (.inr (.inr (.inl hkb)))
      · exact .inr (.inr (.inr (.inr (.inl hx))))
      · exact .inr (.inr (.inr (.inr (.inr hlen))))
      · exact .inl hcap

/-! ### The word of RL_EXIT_CMD (R78, R157) -/

/-- RL_EXIT_CMD is read from its own word alone, with any operand sequence that fits (log 10, 22). -/
theorem decode_eq_rlExitCmd {cap : Fin 65536} {req : Word} {opnd : List Byte} :
    decode cap req opnd = .ok .rlExitCmd ↔ req = 0x22#32 ∧ opnd.length ≤ cap.val := by
  constructor
  · intro h
    obtain ⟨_, henc, hfit⟩ := encodeOfDecodeIsTheRequest cap req opnd _ h
    exact ⟨(congrArg Request.word henc).symm, hfit⟩
  · rintro ⟨rfl, hfit⟩
    exact decode_eq_ok.mpr ⟨hfit, .rlExitCmd, by decide, rfl, rfl⟩

end Sys2Proof

/-! PROOFS. What the first step of an operation leaves as it is, and that it always answers a next state (R26, R33, R37,
R38, R157). -/

namespace Sys2Proof.Machine

open Spec

/-- The contract of a Command-mode call, in the words of R204. -/
theorem contractFault_command (s : State) : contractFault .command s = commandFault s := by
  cases hm : s.mode <;> simp [contractFault, commandFault, hm]

/-- Settles O44: only the press part of KB_PRESS and of KB_WRITE can fail, and its error is a next state as well. -/
theorem everyOperationAnswersANextState : Obligations.EveryOperationAnswersANextState := by
  intro i s
  cases i with
  | kbPress code =>
    change ∃ t, execKbPress code s = .next t
    unfold execKbPress
    split <;> exact ⟨_, rfl⟩
  | kbWrite code =>
    change ∃ t, execKbWrite code s = .next t
    unfold execKbWrite
    split <;> exact ⟨_, rfl⟩
  | _ => exact ⟨_, rfl⟩

/-- RL_EXIT_CMD alone decides `MODE` in its first step (R150, R157). -/
theorem exec_mode {i : Instr} {s t : State} (h : exec i s = .next t) :
    t.mode = if i = .rlExitCmd then .data else s.mode := by
  by_cases hi : i = .rlExitCmd
  · subst hi
    cases h
    rfl
  · obtain ⟨u, hc, he⟩ := exec_commits h
    have hu := hc.mode hi
    obtain ⟨_, _, _, _, _, rfl⟩ := he.frame
    rw [if_neg hi, ← hu]

/-- The operations without a `w` in the columns TX and FAULT (R37). -/
theorem exec_silent {i : Instr} {s t : State} (h : exec i s = .next t)
    (hi : i.op = .msIsPressed ∨ i.op = .hidGetInterface ∨ i.op = .hidGetDescriptor ∨ i.op = .hidSetup) :
    t.tx = s.tx ∧ t.fault = s.fault := by
  cases i with
  | msIsPressed | hidGetInterface | hidGetDescriptor | hidSetup => cases h; exact ⟨rfl, rfl⟩
  | _ => simp [Instr.op] at hi

/-- Raw bytes go out in either mode (R159). -/
theorem exec_rlSendControl_fault {i : Instr} {s t : State} (h : exec i s = .next t) (hi : i.op = .rlSendControl) :
    t.fault = s.fault := by
  cases i with
  | rlSendControl => cases h; rfl
  | _ => exact nomatch hi

/-- Settles O52: an operation has made only the writes of `Commits` when it ends, and an end writes only `RESP`, `PHASE`
and the result latch. -/
theorem operationsKeepToTheAccessTable : Obligations.OperationsKeepToTheAccessTable := by
  intro i s t h
  have hsilent := exec_silent h
  have hcontrol := exec_rlSendControl_fault h
  obtain ⟨u, hc, he⟩ := exec_commits h
  have hidle := he.idle
  obtain ⟨_, _, _, _, _, rfl⟩ := he.frame
  obtain ⟨hframe, hmode, hkeyboard, _, hbuttons, _⟩ := hc
  obtain ⟨_, _, _, _, _, _, rfl⟩ := hframe
  exact ⟨hmode, hkeyboard, hbuttons, hidle, hsilent, hcontrol, rfl, rfl, rfl, rfl, rfl, rfl, rfl, rfl, rfl⟩

/-- Settles O39: the contract check for Command mode, the exit bytes, and `MODE` set whatever it was. -/
theorem rlExitCmdReturnsToData : Obligations.RlExitCmdReturnsToData := by
  intro s
  refine ⟨by decide, ?_⟩
  change execRlExitCmd s = _
  rw [execRlExitCmd, requireMode_eq, contractFault_command]
  rfl

end Sys2Proof.Machine

/-! PROOFS. What every step of every agent leaves as it is: the fault record, TX, RX, the table, the parameters, the
radio's mode, the distinct key slots and `MODE` (R24, R26, R31, R35, R36, R40, R150, R202, R232, R233). -/

namespace Sys2Proof.Machine

open Spec

/-! ### The line read (R38) -/

/-- The end of a line writes `MODE`, `RESP`, `PHASE` and the result latch alone (R154, R156). -/
theorem finishLine_frame (k : Exchange) (s : State) : ∃ mode status flag line, finishLine k s =
    { s with mode := mode, resp := [], phase := .idle, resStatus := status, resFlag := flag, resLine := line } := by
  cases k with
  | enter => rcases finishEnter_cases s with ⟨_, h⟩ | ⟨_, h⟩ <;> exact ⟨_, _, _, _, h⟩
  | cmd => exact ⟨_, _, _, _, finishCmd_eq s⟩

/-- One byte of a line read writes, beside those, the fault record, and never takes a bit off it (R31, R205). -/
theorem takeLineByte_frame (k : Exchange) (b : Byte) (s : State) : ∃ mode resp phase bits status flag line,
    takeLineByte k b s = { s with
      mode := mode, resp := resp, phase := phase, fault := s.fault ||| bits, resStatus := status, resFlag := flag,
      resLine := line } := by
  rcases takeLineByte_cases k b s with ⟨_, h⟩ | ⟨_, _, h⟩ | ⟨_, _, h⟩
  · obtain ⟨_, _, _, _, hf⟩ := finishLine_frame k s
    exact ⟨_, _, _, 0#3, _, _, _, by rw [h, hf, BitVec.or_zero]⟩
  · exact ⟨_, _, _, _, _, _, _, h⟩
  · exact ⟨_, _, _, 0#3, _, _, _, by rw [h, BitVec.or_zero]⟩

/-- A byte of a line read puts the block into Command mode only as the CR behind the line `CMD` of an entry (R154). -/
theorem takeLineByte_mode (k : Exchange) (b : Byte) (s : State) : (takeLineByte k b s).mode =
    if k = .enter ∧ b = 0x0D#8 ∧ s.resp = [0x43#8, 0x4D#8, 0x44#8] then .command else s.mode := by
  rcases takeLineByte_cases k b s with ⟨hb, h⟩ | ⟨hb, _, h⟩ | ⟨hb, _, h⟩
  · rw [h]
    cases k with
    | enter =>
      rcases finishEnter_cases s with ⟨hr, hf⟩ | ⟨hr, hf⟩
      · rw [if_pos ⟨rfl, hb, hr⟩, finishLine, hf]
      · rw [if_neg fun hc => hr hc.2.2, finishLine, hf]
    | cmd => exact (if_neg fun hc => nomatch hc.1).symm
  · rw [h, if_neg fun hc => hb hc.2.1]
  · rw [h, if_neg fun hc => hb hc.2.1]

/-! ### The block's step (R38) -/

/-- What a step of the block keeps: `ASCII_MAP`, the parameters, the radio's mode, the distinct key slots, and all that
stood on TX and in the fault record. -/
structure BlockKeeps (s t : State) : Prop where
  asciiMap : t.asciiMap = s.asciiMap
  params : t.params = s.params
  radioMode : t.radioMode = s.radioMode
  distinct : KeysDistinct s.keys → KeysDistinct t.keys
  tx : ∃ sent, t.tx = s.tx ++ sent
  fault : ∃ bits, t.fault = s.fault ||| bits

theorem exec_keeps {i : Instr} {s t : State} (h : exec i s = .next t) : BlockKeeps s t := by
  obtain ⟨u, hc, he⟩ := exec_commits h
  obtain ⟨_, _, _, _, _, rfl⟩ := he.frame
  have hfault : ∃ bits, u.fault = s.fault ||| bits :=
    hc.fault.elim (fun hf => ⟨0#3, by rw [hf, BitVec.or_zero]⟩) (fun hf => ⟨_, hf⟩)
  have hdistinct := hc.distinct
  obtain ⟨_, _, _, _, _, sent, rfl⟩ := hc.frame
  exact ⟨rfl, rfl, rfl, hdistinct, ⟨sent, rfl⟩, hfault⟩

theorem blockStep_keeps {offered : Bool} {s t : State} (h : blockStep offered s = .next t) : BlockKeeps s t := by
  have hnil : s.tx = s.tx ++ [] := (List.append_nil _).symm
  rcases blockStep_cases h with ⟨_, _, _, _, he⟩ | ⟨_, _, _, rfl⟩ | ⟨k, b, rest, _, _, rfl⟩ | ⟨_, _, _, _, _, rfl⟩
  · exact { exec_keeps he with }
  · exact ⟨rfl, rfl, rfl, id, ⟨[], hnil⟩, ⟨_, rfl⟩⟩
  · obtain ⟨_, _, _, bits, _, _, _, hf⟩ := takeLineByte_frame k b { s with rx := rest }
    rw [hf]
    exact ⟨rfl, rfl, rfl, id, ⟨[], hnil⟩, ⟨bits, rfl⟩⟩
  · exact ⟨rfl, rfl, rfl, id, ⟨[], hnil⟩, ⟨0#3, BitVec.or_zero.symm⟩⟩

/-- The block leaves RX, but for the oldest byte that a line read takes (R35, R51). -/
theorem blockStep_rx {offered : Bool} {s t : State} (h : blockStep offered s = .next t) :
    t.rx = s.rx ∨ ∃ k b, s.phase = .readLine k ∧ s.rx = b :: t.rx := by
  rcases blockStep_cases h with ⟨_, _, i, _, he⟩ | ⟨_, _, _, rfl⟩ | ⟨k, b, rest, hp, hrx, rfl⟩ | ⟨_, _, _, _, _, rfl⟩
  · obtain ⟨u, hc, hend⟩ := exec_commits he
    obtain ⟨_, _, _, _, _, rfl⟩ := hend.frame
    obtain ⟨_, _, _, _, _, _, rfl⟩ := hc.frame
    exact .inl rfl
  · exact .inl rfl
  · obtain ⟨_, _, _, _, _, _, _, hf⟩ := takeLineByte_frame k b { s with rx := rest }
    exact .inr ⟨k, b, hp, by rw [hrx, hf]⟩
  · exact .inl rfl

/-! ### The step (R10) -/

theorem turnOf_of_turns {s : State} {t : Turn} {ts : List Turn} (h : s.turns = t :: ts) : turnOf s = t := by
  rw [turnOf, h]; rfl

/-- A step of the block is taken in the block's turn or with a timeout offered. -/
theorem turnOf_of_offered {s : State} {offered : Bool}
    (h : s.turns.headD .block = if offered then .timeout else .block) : turnOf s = .block ∨ turnOf s = .timeout := by
  cases offered with
  | false => exact .inl h
  | true => exact .inr h

/-- Settles O54: the block's step keeps the slots distinct, reset empties them, and no other agent writes them. -/
theorem everyStepKeepsKeysDistinct : Obligations.EveryStepKeepsKeysDistinct := by
  intro s s' hd h
  rcases step_cases h with ⟨_, _, hb⟩ | ⟨_, _, _, _, _, _, rfl⟩ | ⟨_, _, _, rfl⟩ | ⟨_, _, _, rfl⟩ | ⟨_, _, _, rfl⟩ |
    ⟨_, _, rfl⟩
  · exact (blockStep_keeps hb).distinct hd
  · exact hd
  · exact hd
  · exact hd
  · exact hd
  · exact keysDistinct_empty

/-- Settles O48: the block only ORs bits into `FAULT`, and the host and the peer do not write it. -/
theorem faultBitsAreSticky : Obligations.FaultBitsAreSticky := by
  intro s s' n h hturn hset
  rcases step_cases h with ⟨_, _, hb⟩ | ⟨_, _, _, _, _, _, rfl⟩ | ⟨_, _, _, rfl⟩ | ⟨_, _, _, rfl⟩ | ⟨_, _, _, rfl⟩ |
    ⟨_, ht, _⟩
  · obtain ⟨bits, hf⟩ := (blockStep_keeps hb).fault
    rw [hf, BitVec.getLsbD_or, hset, Bool.true_or]
  · exact hset
  · exact hset
  · exact hset
  · exact hset
  · exact absurd (turnOf_of_turns ht) hturn

/-- Settles O49: the block appends, and the other agents do not write the log. -/
theorem txIsAppendOnly : Obligations.TxIsAppendOnly := by
  intro s s' h
  rcases step_cases h with ⟨_, _, hb⟩ | ⟨_, _, _, _, _, _, rfl⟩ | ⟨_, _, _, rfl⟩ | ⟨_, _, _, rfl⟩ | ⟨_, _, _, rfl⟩ |
    ⟨_, _, rfl⟩
  · exact (blockStep_keeps hb).tx
  all_goals exact ⟨[], (List.append_nil _).symm⟩

/-- Settles O50: the peer's append and the line read's byte are the only two moves on RX. -/
theorem rxIsAFifo : Obligations.RxIsAFifo := by
  intro s s' h
  rcases step_cases h with ⟨_, hturn, hb⟩ | ⟨_, _, _, _, _, _, rfl⟩ | ⟨_, b, ht, rfl⟩ | ⟨_, _, _, rfl⟩ |
    ⟨_, _, _, rfl⟩ | ⟨_, _, rfl⟩
  · rcases blockStep_rx hb with hrx | ⟨k, b, hp, hrx⟩
    · exact .inl hrx
    · exact .inr (.inr ⟨k, b, hp, turnOf_of_offered hturn, hrx⟩)
  · exact .inl rfl
  · exact .inr (.inl ⟨b, turnOf_of_turns ht, rfl⟩)
  · exact .inl rfl
  · exact .inl rfl
  · exact .inl rfl

/-- Settles O51: no agent writes the table or a parameter, and the radio's mode is written in its own turn alone. -/
theorem tableParametersAndRadioAreNotWritten : Obligations.TableParametersAndRadioAreNotWritten := by
  intro s s' h
  rcases step_cases h with ⟨_, _, hb⟩ | ⟨_, _, _, _, _, _, rfl⟩ | ⟨_, _, _, rfl⟩ | ⟨_, _, _, rfl⟩ | ⟨_, m, ht, rfl⟩ |
    ⟨_, _, rfl⟩
  · have hk := blockStep_keeps hb
    exact ⟨hk.asciiMap, hk.params, .inl hk.radioMode⟩
  · exact ⟨rfl, rfl, .inl rfl⟩
  · exact ⟨rfl, rfl, .inl rfl⟩
  · exact ⟨rfl, rfl, .inl rfl⟩
  · exact ⟨rfl, rfl, .inr ⟨m, turnOf_of_turns ht, rfl⟩⟩
  · exact ⟨rfl, rfl, .inl rfl⟩

/-! ### The mode machine (R150) -/

theorem modeAfter_idle {s : State} (ht : turnOf s = .block ∨ turnOf s = .timeout) (hp : s.phase = .idle) :
    modeAfter s = if s.req = 0x22#32 ∧ s.opnd.length ≤ s.params.operandCap.val then .data else s.mode := by
  rcases ht with ht | ht <;> simp only [modeAfter, ht, hp]

theorem modeAfter_readLine {s : State} (ht : turnOf s = .block ∨ turnOf s = .timeout) {k : Exchange}
    (hp : s.phase = .readLine k) : modeAfter s =
      if k = .enter ∧ s.rx.head? = some 0x0D#8 ∧ s.resp = [0x43#8, 0x4D#8, 0x44#8] then .command else s.mode := by
  rcases ht with ht | ht <;> cases k <;> simp [modeAfter, ht, hp]

/-- The block's step follows the table of R150, whichever turn list it is taken from. -/
theorem blockStep_mode {offered : Bool} {s t : State} {ts : List Turn}
    (h : blockStep offered { s with turns := ts } = .next t) (hturn : turnOf s = .block ∨ turnOf s = .timeout) :
    t.mode = modeAfter s := by
  rcases blockStep_cases h with ⟨hp, _, i, hd, he⟩ | ⟨hp, _, ⟨e, hd⟩, rfl⟩ | ⟨k, b, rest, hp, hrx, rfl⟩ |
    ⟨k, hp, hrx, _, _, rfl⟩
  · rw [exec_mode he, modeAfter_idle hturn hp]
    by_cases hi : i = .rlExitCmd
    · subst hi
      rw [if_pos rfl, if_pos (decode_eq_rlExitCmd.mp hd)]
    · rw [if_neg hi, if_neg fun hx => hi (Except.ok.inj (hd.symm.trans (decode_eq_rlExitCmd.mpr hx)))]
  · rw [modeAfter_idle hturn hp, if_neg fun hx => nomatch hd.symm.trans (decode_eq_rlExitCmd.mpr hx)]
  · rw [takeLineByte_mode, modeAfter_readLine hturn hp, show s.rx = b :: rest from hrx, List.head?_cons]
    simp only [Option.some.injEq]
  · rw [modeAfter_readLine hturn hp, show s.rx = [] from hrx, if_neg]
    · rfl
    · exact fun hc => nomatch hc.2.1

/-- Settles O45: the host and the peer leave `MODE`, reset sets it to Data, and the block follows the table. -/
theorem modeFollowsTheModeMachine : Obligations.ModeFollowsTheModeMachine := by
  intro s s' h
  rcases step_cases h with ⟨_, hturn, hb⟩ | ⟨_, _, _, ht, _, _, rfl⟩ | ⟨_, _, ht, rfl⟩ | ⟨_, ht, _, rfl⟩ |
    ⟨_, _, ht, rfl⟩ | ⟨_, ht, rfl⟩
  · exact blockStep_mode hb (turnOf_of_offered hturn)
  all_goals simp only [modeAfter, turnOf_of_turns ht, applyReset_mode]

end Sys2Proof.Machine

/-! PROOFS. One step at a time: what the step is in each phase and turn, run forwards (R38, R41, R154, R156, R203 to R208,
R230). -/

namespace Sys2Proof.Machine

open Spec

/-! ### The block's step, forwards (R38) -/

theorem blockStep_legal {offered : Bool} {s : State} {i : Instr} (hp : s.phase = .idle) (hv : s.reqValid = true)
    (hd : decode s.params.operandCap s.req s.opnd = .ok i) :
    blockStep offered s = exec i { s with reqValid := false } := by
  rw [blockStep_idle hp hv]
  simp only [acceptRequest, hd]

theorem blockStep_illegal {offered : Bool} {s : State} {e : IllegalRequest} (hp : s.phase = .idle)
    (hv : s.reqValid = true) (hd : decode s.params.operandCap s.req s.opnd = .error e) :
    blockStep offered s = .next { s with reqValid := false, fault := s.fault ||| 0b100#3, phase := .halted } := by
  rw [blockStep_idle hp hv]
  simp only [acceptRequest, hd]
  rfl

theorem blockStep_noRequest {offered : Bool} {s : State} (hp : s.phase = .idle) (hv : s.reqValid = false) :
    blockStep offered s = .fault .noRequest := by
  simp only [blockStep, hp, hv, Bool.false_eq_true, if_false]

theorem blockStep_halted {offered : Bool} {s : State} (hp : s.phase = .halted) :
    blockStep offered s = .fault .halted := by
  simp only [blockStep, hp]

/-- A line read with RX empty waits where no timeout is offered or timeouts are disabled (R207). -/
theorem blockStep_held {offered : Bool} {s : State} {k : Exchange} (hp : s.phase = .readLine k) (hrx : s.rx = [])
    (ho : (offered && s.params.timeoutEnabled) = false) : blockStep offered s = .fault .lineHeld := by
  simp only [blockStep, hp, lineStep, rxRead, hrx, ho, Bool.false_eq_true, if_false]

theorem blockStep_timeout {s : State} {k : Exchange} (hp : s.phase = .readLine k) (hrx : s.rx = [])
    (hen : s.params.timeoutEnabled = true) : blockStep true s = .next { s with
      resp := [], resStatus := 0x04#8, resFlag := false, resLine := [], phase := .idle } := by
  simp only [blockStep, hp, lineStep, rxRead, hrx, hen, Bool.and_self, if_true]
  simp only [timeoutLine, complete, discardResp, hrx]
  rfl

/-! ### One byte of a line, forwards (R38, R154, R205) -/

theorem takeLineByte_cr (k : Exchange) (s : State) : takeLineByte k 0x0D#8 s = finishLine k s := if_pos rfl

theorem takeLineByte_append (k : Exchange) {b : Byte} {s : State} (hb : b ≠ 0x0D#8)
    (hl : s.resp.length ≠ s.params.respCap) : takeLineByte k b s = { s with resp := s.resp ++ [b] } :=
  (if_neg hb).trans (if_neg hl)

theorem takeLineByte_overflow (k : Exchange) {b : Byte} {s : State} (hb : b ≠ 0x0D#8)
    (hl : s.resp.length = s.params.respCap) :
    takeLineByte k b s = { s with fault := s.fault ||| 0b010#3, phase := .halted } :=
  (if_neg hb).trans (if_pos hl)

theorem finishEnter_of_cmd {s : State} (h : s.resp = [0x43#8, 0x4D#8, 0x44#8]) : finishEnter s = { s with
    resp := [], mode := .command, resStatus := 0x00#8, resFlag := true, resLine := [], phase := .idle } :=
  ((finishEnter_cases s).resolve_right fun hn => hn.1 h).2

theorem finishEnter_of_ne {s : State} (h : s.resp ≠ [0x43#8, 0x4D#8, 0x44#8]) : finishEnter s = { s with
    resp := [], resStatus := 0x03#8, resFlag := false, resLine := [], phase := .idle } :=
  ((finishEnter_cases s).resolve_left fun hc => h hc.1).2

/-- The block's turn in a line read takes the oldest byte of RX. -/
theorem step_line {s : State} {k : Exchange} {b : Byte} {rest : List Byte} {ts : List Turn} (hp : s.phase = .readLine k)
    (ht : blockTurn s ts) (hrx : s.rx = b :: rest) :
    step s = .next (takeLineByte k b { s with turns := ts, rx := rest }) :=
  (step_of_either_block_turn ht).trans (blockStep_line hp hrx)

/-! ### The request (R38, R206) -/

/-- Settles O5: both forms of the block's turn lead to its step without that turn. -/
theorem stepRunsTheDecodedInstruction : Obligations.StepRunsTheDecodedInstruction := by
  intro s i hp hv hd
  refine ⟨fun ht => ?_, fun ts ht => ?_⟩
  · exact (step_of_no_turns ht).trans (blockStep_legal hp hv hd)
  · exact (step_of_block_turn ht).trans (blockStep_legal hp hv hd)

/-- A table word that the decoder reads is read from the request that stands for it (log 17). -/
theorem decode_tableRequest {nbits w : Nat} {i : Instr} (h : decodeTableWord nbits w = some i) :
    decode Params.default.operandCap (tableRequest nbits w).word (tableRequest nbits w).opnd = .ok i := by
  rw [tableRequest, requestOfBus_tableBytes, Option.getD_some]
  simp only [decodeTableWord, requestOfBus_tableBytes] at h
  split at h
  · next hd => rw [hd, Option.some.inj h]
  · exact nomatch h

/-- Settles O6: the presented request is accepted by the very next step, and it decodes to the table's instruction. -/
theorem presentedTableWordRunsNext : Obligations.PresentedTableWordRunsNext := by
  intro s nbits w i hcap hw
  have hd := decode_tableRequest hw
  rw [← hcap] at hd
  exact (step_of_block_turn rfl).trans (blockStep_legal rfl rfl hd)

/-- Settles O7: the block's step on a request that the decoder refuses. -/
theorem illegalRequestHalts : Obligations.IllegalRequestHalts := by
  intro s e ts hp hv hd ht
  exact (step_of_either_block_turn ht).trans (blockStep_illegal hp hv hd)

/-- Settles O58: an overlong sequence makes the request illegal before its word is looked at (R32). -/
theorem overlongOperandsHalt : Obligations.OverlongOperandsHalt := by
  intro s ts hp hv hlong ht
  exact illegalRequestHalts s .overCapacity ts hp hv (decode_of_overlong hlong) ht

/-! ### Where there is no step (R38, R203) -/

/-- The three states in which R38 gives the block no step, the environment offering nothing. -/
def NoStep (s : State) : Prop :=
  (s.phase = .idle ∧ s.reqValid = false) ∨ (∃ k, s.phase = .readLine k ∧ s.rx = []) ∨ s.phase = .halted

theorem blockStep_of_noStep {s : State} (h : NoStep s) : ∃ f, blockStep false s = .fault f := by
  rcases h with ⟨hp, hv⟩ | ⟨k, hp, hrx⟩ | hp
  · exact ⟨_, blockStep_noRequest hp hv⟩
  · exact ⟨_, blockStep_held hp hrx rfl⟩
  · exact ⟨_, blockStep_halted hp⟩

theorem blockStep_of_not_noStep {s : State} (h : ¬ NoStep s) : ∃ t, blockStep false s = .next t := by
  cases hp : s.phase with
  | idle =>
    have hv : s.reqValid = true := Bool.eq_true_of_not_eq_false fun hv => h (.inl ⟨hp, hv⟩)
    cases hd : decode s.params.operandCap s.req s.opnd with
    | error e => exact ⟨_, blockStep_illegal hp hv hd⟩
    | ok i =>
      rw [blockStep_legal hp hv hd]
      exact everyOperationAnswersANextState i _
  | readLine k =>
    cases hrx : s.rx with
    | nil => exact absurd (.inr (.inl ⟨k, hp, hrx⟩)) h
    | cons b rest => exact ⟨_, blockStep_line hp hrx⟩
  | halted => exact absurd (.inr (.inr hp)) h

/-- Settles O8: the block stops in those three states, answers a next state in all others, and never does both. -/
theorem blockStopsExactlyWhereNoStep : Obligations.BlockStopsExactlyWhereNoStep := by
  intro s ht
  rw [step_of_no_turns ht]
  refine ⟨⟨blockStep_of_noStep, fun ⟨f, hf⟩ => by_contra fun hn => ?_⟩, ⟨blockStep_of_not_noStep, fun ⟨t, hn⟩ h => ?_⟩⟩
  · obtain ⟨t, ht⟩ := blockStep_of_not_noStep hn
    exact nomatch hf.symm.trans ht
  · obtain ⟨f, hf⟩ := blockStep_of_noStep h
    exact nomatch hf.symm.trans hn

/-! ### Host and reset (R41, R230) -/

theorem hostPresent_of_ready {req : Word} {opnd : List Byte} {s : State} (h : s.ready = true ∧ s.reqValid = false) :
    hostPresent req opnd s = .next { s with req := req, opnd := opnd, reqValid := true } := by
  rw [hostPresent, h.1, h.2]; rfl

theorem hostPresent_of_not_ready {req : Word} {opnd : List Byte} {s : State}
    (h : ¬ (s.ready = true ∧ s.reqValid = false)) : hostPresent req opnd s = .fault .hostHasNoMove := by
  rw [hostPresent, if_neg]
  rwa [Bool.and_eq_true, Bool.not_eq_true']

/-- Settles O9: no agent but reset gets a halted block to move. -/
theorem haltedUntilReset : Obligations.HaltedUntilReset := by
  intro s ts hp
  refine ⟨fun ht => ?_, fun ht => ?_, fun ht => ?_, fun req opnd ht => ?_, fun ht => ?_⟩
  · exact (step_of_no_turns ht).trans (blockStep_halted hp)
  · exact (step_of_turn ht).trans (blockStep_halted hp)
  · exact (step_of_turn ht).trans (blockStep_halted hp)
  · refine (step_of_turn ht).trans (hostPresent_of_not_ready fun h => ?_)
    exact nomatch hp.symm.trans (beq_iff_eq.mp h.1)
  · exact ⟨_, step_of_turn ht, rfl, rfl⟩

/-- Settles O10: the reset turn is `applyReset`, whose every register is that of the state after power-on. -/
theorem resetSetsEveryRegister : Obligations.ResetSetsEveryRegister := by
  intro s ts ht
  exact ⟨_, step_of_turn ht, rfl⟩

/-- Settles O11: the host's turn writes the latch if the block is ready and the latch is free, and stops otherwise. -/
theorem hostPresentsOnlyWhenReady : Obligations.HostPresentsOnlyWhenReady := by
  intro s req opnd ts ht
  refine ⟨fun h => ?_, fun h => ?_⟩
  · exact (step_of_turn ht).trans (hostPresent_of_ready h)
  · exact (step_of_turn ht).trans (hostPresent_of_not_ready h)

/-- Settles O57: the values of R39, field by field. -/
theorem resetStateIsTheSpecs : Obligations.ResetStateIsTheSpecs :=
  ⟨rfl, rfl, KeyFile.get_empty, rfl, rfl, rfl, rfl, rfl, rfl, rfl, rfl, rfl, rfl, rfl, rfl, rfl, rfl, rfl, rfl⟩

/-! ### One byte of a line (R38, R154, R156, R205, R207) -/

/-- Settles O33: the CR ends the line, and `finishEnter` compares it with `CMD`. -/
theorem entryLineEnds : Obligations.EntryLineEnds := by
  intro s rest ts hp ht hrx
  rw [step_line hp ht hrx, takeLineByte_cr, finishLine]
  exact ⟨fun hr => congrArg _ (finishEnter_of_cmd hr), fun hr => congrArg _ (finishEnter_of_ne hr)⟩

/-- Settles O34: the CR ends the line, which `finishCmd` hands over. -/
theorem commandLineEnds : Obligations.CommandLineEnds := by
  intro s rest ts hp ht hrx
  rw [step_line hp ht hrx, takeLineByte_cr, finishLine, finishCmd_eq]

/-- Settles O59: a byte that is no CR goes into `RESP` if there is room, and else overflows it. -/
theorem lineReadTakesOneByte : Obligations.LineReadTakesOneByte := by
  intro s k b rest ts hp ht hrx hb
  rw [step_line hp ht hrx]
  exact ⟨fun hl => congrArg _ (takeLineByte_append k hb hl), fun hl => congrArg _ (takeLineByte_overflow k hb hl)⟩

/-- Settles O38: with RX empty the offer decides, and with a byte in RX it is not looked at. -/
theorem lineWaitsOrTimesOut : Obligations.LineWaitsOrTimesOut := by
  intro s k ts hp
  refine ⟨fun hrx ht => ?_, fun hrx ht hdis => ?_, fun hrx ht hen => ?_, fun hrx ht => ?_⟩
  · exact (step_of_either_block_turn ht).trans (blockStep_held hp hrx rfl)
  · exact (step_of_turn ht).trans (blockStep_held hp hrx hdis)
  · exact (step_of_turn ht).trans (blockStep_timeout hp hrx hen)
  · obtain ⟨b, rest, hcons⟩ := List.exists_cons_of_ne_nil hrx
    calc step s = blockStep true { s with turns := ts } := step_of_turn ht
      _ = .next (takeLineByte k b { s with turns := ts, rx := rest }) := blockStep_line hp hcons
      _ = step { s with turns := .block :: ts } :=
        (step_line (s := { s with turns := .block :: ts }) hp (.inr rfl) hcons).symm

end Sys2Proof.Machine

/-! PROOFS. A whole exchange: the first step, the bytes of one line, and its CR (R152 to R156, R205). -/

namespace Sys2Proof.Machine

open Spec

/-! ### The first step of an exchange (R153, R155) -/

theorem exec_rlEnterCmd_eq (s : State) : exec .rlEnterCmd s = .next { s with
    tx := s.tx ++ [0x00#8, 0x24#8, 0x24#8, 0x24#8], fault := dataFault s, resp := [], phase := .readLine .enter } := by
  change execRlEnterCmd s = _
  rw [execRlEnterCmd, requireMode_eq, contractFault_data]
  simp only [startLine, sendBytes, List.append_assoc]
  rfl

theorem exec_rlSendCmd_eq (text : List Byte) (s : State) : exec (.rlSendCmd text) s = .next { s with
    tx := s.tx ++ text, fault := commandFault s, resp := [], phase := .readLine .cmd } := by
  change execRlSendCmd text s = _
  rw [execRlSendCmd, requireMode_eq, contractFault_command]
  rfl

/-! ### The bytes of a line (R38) -/

/-- As many steps as there are bytes move them from RX to `RESP`, if they fit and none is a CR. -/
theorem run_lineBytes {k : Exchange} (line rest : List Byte) (n : Nat) {s : State} (hp : s.phase = .readLine k)
    (ht : s.turns = []) (hrx : s.rx = line ++ rest) (hcr : 0x0D#8 ∉ line)
    (hfit : s.resp.length + line.length ≤ s.params.respCap) :
    Sys2Proof.core.run (line.length + n) s =
      Sys2Proof.core.run n ({ s with resp := s.resp ++ line, rx := rest } : State) := by
  induction line generalizing s with
  | nil =>
    rw [List.nil_append] at hrx
    subst hrx
    rw [List.length_nil, Nat.zero_add, List.append_nil]
  | cons b line ih =>
    obtain ⟨hb, hcr⟩ := not_or.mp (mt List.mem_cons.mpr hcr)
    rw [List.length_cons] at hfit
    have hstep : step s = .next { s with rx := line ++ rest, resp := s.resp ++ [b] } :=
      (lineReadTakesOneByte s k b (line ++ rest) s.turns hp (.inl ⟨ht, ht⟩) hrx (Ne.symm hb)).1 (by omega)
    have hfit' : (s.resp ++ [b]).length + line.length ≤ s.params.respCap := by
      rw [List.length_append, List.length_singleton]
      omega
    have hih := ih (s := { s with rx := line ++ rest, resp := s.resp ++ [b] }) hp ht rfl hcr hfit'
    rw [List.append_assoc] at hih
    rw [List.length_cons, Nat.add_right_comm, core_run_next hstep]
    exact hih

/-- The line and its CR: the exchange ends with the line in `RESP` and the CR consumed. -/
theorem run_line {k : Exchange} {line rest : List Byte} {s : State} (hp : s.phase = .readLine k) (ht : s.turns = [])
    (hresp : s.resp = []) (hrx : s.rx = line ++ 0x0D#8 :: rest) (hcr : 0x0D#8 ∉ line)
    (hfit : line.length ≤ s.params.respCap) :
    Sys2Proof.core.run (line.length + 1) s = .next (finishLine k { s with resp := line, rx := rest }) := by
  have hbytes := run_lineBytes line (0x0D#8 :: rest) 1 hp ht hrx hcr (by rwa [hresp, List.length_nil, Nat.zero_add])
  have hend := step_line (s := { s with resp := line, rx := 0x0D#8 :: rest }) hp (.inl ⟨ht, ht⟩) rfl
  rw [hresp, List.nil_append] at hbytes
  rw [takeLineByte_cr] at hend
  exact hbytes.trans (core_run_next hend 0)

/-- An exchange whose first step starts the line read in `u`: that step, the line, and its CR. -/
theorem run_exchange {k : Exchange} {line rest : List Byte} {s u : State} (hstep : step s = .next u)
    (hp : u.phase = .readLine k) (ht : u.turns = []) (hresp : u.resp = []) (hrx : u.rx = line ++ 0x0D#8 :: rest)
    (hcr : 0x0D#8 ∉ line) (hfit : line.length ≤ u.params.respCap) :
    Sys2Proof.core.run (line.length + 2) s = .next (finishLine k { u with resp := line, rx := rest }) :=
  (core_run_next hstep _).trans (run_line hp ht hresp hrx hcr hfit)

/-- Settles O35: the request is accepted, the line and its CR are read, and `finishEnter` compares the line with `CMD`. -/
theorem commandEntryReadsOneLine : Obligations.CommandEntryReadsOneLine := by
  intro s line rest hp hv hreq hopnd ht hrx hcr hfit
  have hd : decode s.params.operandCap s.req s.opnd = .ok .rlEnterCmd := by
    rw [hreq]
    exact decode_eq_ok.mpr ⟨hopnd, .rlEnterCmd, by decide, rfl, rfl⟩
  have hstep := (step_of_no_turns ht).trans ((blockStep_legal hp hv hd).trans (exec_rlEnterCmd_eq _))
  have hrun := run_exchange hstep rfl ht rfl hrx hcr hfit
  by_cases hline : line = [0x43#8, 0x4D#8, 0x44#8]
  · rw [if_pos hline, if_pos hline, decide_eq_true hline]
    exact hrun.trans (congrArg _ (finishEnter_of_cmd hline))
  · rw [if_neg hline, if_neg hline, decide_eq_false hline]
    exact hrun.trans (congrArg _ (finishEnter_of_ne hline))

/-- Settles O36: the request is accepted, the line and its CR are read, and `finishCmd` hands the line over. -/
theorem commandExchangeReturnsTheLine : Obligations.CommandExchangeReturnsTheLine := by
  intro s text line rest hp hv hd ht hrx hcr hfit
  have hstep := (step_of_no_turns ht).trans ((blockStep_legal hp hv hd).trans (exec_rlSendCmd_eq text _))
  exact run_exchange hstep rfl ht rfl hrx hcr hfit

/-- Settles O37: the bytes that fit fill `RESP`, and the next one overflows it. -/
theorem overlongLineHalts : Obligations.OverlongLineHalts := by
  intro s k line rest b hp ht hrx hcr hb hfull
  have hlen : (s.resp ++ line).length = s.params.respCap := by rwa [List.length_append]
  have hbytes := run_lineBytes line (b :: rest) 1 hp ht hrx hcr (Nat.le_of_eq hfull)
  have hend := step_line (s := { s with resp := s.resp ++ line, rx := b :: rest }) hp (.inl ⟨ht, ht⟩) rfl
  rw [takeLineByte_overflow k hb hlen] at hend
  exact hbytes.trans (core_run_next hend 0)

end Sys2Proof.Machine

/-! PROOFS. Two runs whose states differ in `FAULT` and in the result latch alone: no operation, no line read and no other
turn reads these, so the runs go on to differ in them alone (R31, R34, R38). -/

namespace Sys2Proof.Machine

open Spec

/-! ### Agreement but for the record (R31, R33) -/

/-- `t` is `s` but for the fault record and the result latch. -/
def AgreeButRecord (s t : State) : Prop :=
  ∃ f st fl ln, t = { s with fault := f, resStatus := st, resFlag := fl, resLine := ln }

theorem AgreeButRecord.eq {s t : State} (h : AgreeButRecord s t) : t = { s with
    fault := t.fault, resStatus := t.resStatus, resFlag := t.resFlag, resLine := t.resLine } := by
  obtain ⟨_, _, _, _, rfl⟩ := h
  rfl

theorem AgreeButRecord.btn {s t : State} (h : AgreeButRecord s t) : t.btn = s.btn := by
  obtain ⟨_, _, _, _, rfl⟩ := h
  rfl

theorem AgreeButRecord.turns {s t : State} (h : AgreeButRecord s t) : t.turns = s.turns := by
  obtain ⟨_, _, _, _, rfl⟩ := h
  rfl

theorem AgreeButRecord.pressKeys {s t : State} (h : AgreeButRecord s t) (code : Byte) :
    pressKeys code t = pressKeys code s := by
  obtain ⟨_, _, _, _, rfl⟩ := h
  exact pressKeys_congr code rfl rfl rfl rfl

theorem AgreeButRecord.releaseKeys {s t : State} (h : AgreeButRecord s t) (code : Byte) :
    releaseKeys code t = releaseKeys code s := by
  obtain ⟨_, _, _, _, rfl⟩ := h
  exact releaseKeys_congr code rfl rfl rfl rfl

/-! The writes of an operation, made in both states, keep the agreement. -/

/-- A write that neither looks at the record nor touches it. -/
theorem AgreeButRecord.map {s t : State} (h : AgreeButRecord s t) (g : State → State)
    (hg : ∀ f st fl ln, g { s with fault := f, resStatus := st, resFlag := fl, resLine := ln } =
      { g s with fault := f, resStatus := st, resFlag := fl, resLine := ln }) : AgreeButRecord (g s) (g t) := by
  obtain ⟨f, st, fl, ln, rfl⟩ := h
  exact ⟨f, st, fl, ln, hg f st fl ln⟩

theorem AgreeButRecord.sendBytes {s t : State} (h : AgreeButRecord s t) (bytes : List Byte) :
    AgreeButRecord (sendBytes bytes s) (sendBytes bytes t) :=
  h.map (Machine.sendBytes bytes) fun _ _ _ _ => rfl

theorem AgreeButRecord.requireMode {s t : State} (h : AgreeButRecord s t) (m : RadioMode) :
    AgreeButRecord (requireMode m s) (requireMode m t) := by
  obtain ⟨_, _, _, _, rfl⟩ := h
  rw [requireMode_eq, requireMode_eq]
  exact ⟨_, _, _, _, rfl⟩

theorem AgreeButRecord.setMode {s t : State} (h : AgreeButRecord s t) (m : RadioMode) :
    AgreeButRecord { s with mode := m } { t with mode := m } :=
  h.map (fun u => { u with mode := m }) fun _ _ _ _ => rfl

theorem AgreeButRecord.setTurns {s t : State} (h : AgreeButRecord s t) (ts : List Turn) :
    AgreeButRecord { s with turns := ts } { t with turns := ts } :=
  h.map (fun u => { u with turns := ts }) fun _ _ _ _ => rfl

theorem AgreeButRecord.setKeys {s t : State} (h : AgreeButRecord s t) (m : Byte) (k : KeyFile) :
    AgreeButRecord { s with mod := m, keys := k } { t with mod := m, keys := k } :=
  h.map (fun u => { u with mod := m, keys := k }) fun _ _ _ _ => rfl

theorem AgreeButRecord.setButtons {s t : State} (h : AgreeButRecord s t) (n : Byte) :
    AgreeButRecord (setButtons n s) (setButtons n t) :=
  h.map (Machine.setButtons n) fun _ _ _ _ => rfl

theorem AgreeButRecord.sendFramed {s t : State} (h : AgreeButRecord s t) (p : List Byte) :
    AgreeButRecord (sendFramed p s) (sendFramed p t) :=
  (h.requireMode .data).sendBytes (frame p)

theorem AgreeButRecord.kbSend {s t : State} (h : AgreeButRecord s t) : AgreeButRecord (kbSend s) (kbSend t) := by
  have hreport : kbReport t = kbReport s := by
    obtain ⟨_, _, _, _, rfl⟩ := h
    rfl
  rw [Machine.kbSend, Machine.kbSend, hreport]
  exact h.sendFramed _

theorem AgreeButRecord.msSend {s t : State} (h : AgreeButRecord s t) (dx dy dw : Byte) :
    AgreeButRecord (msSend dx dy dw s) (msSend dx dy dw t) := by
  rw [Machine.msSend, Machine.msSend, msReport, msReport, h.btn]
  exact h.sendFramed _

theorem AgreeButRecord.commitPress {s t : State} (h : AgreeButRecord s t) (m : Byte) (k : KeyFile) :
    AgreeButRecord (commitPress m k s) (commitPress m k t) :=
  (h.setKeys m k).kbSend

theorem AgreeButRecord.releasePart {s t : State} (h : AgreeButRecord s t) (code : Byte) :
    AgreeButRecord (releasePart code s) (releasePart code t) := by
  rw [Machine.releasePart, Machine.releasePart, h.releaseKeys]
  exact (h.setKeys _ _).kbSend

theorem AgreeButRecord.sendButtons {s t : State} (h : AgreeButRecord s t) (n : Byte) :
    AgreeButRecord (sendButtons n s) (sendButtons n t) :=
  (h.setButtons n).msSend _ _ _

theorem AgreeButRecord.updateButtons {s t : State} (h : AgreeButRecord s t) (n : Byte) :
    AgreeButRecord (updateButtons n s) (updateButtons n t) := by
  rw [Machine.updateButtons, Machine.updateButtons, h.btn]
  split
  · exact h
  · exact h.sendButtons n

/-! ### The first step of an operation (R38) -/

/-- Both runs answer next states that agree, and that hold the same status and flag if the operation is over. -/
def EndAlike (o o' : Host.Outcome State Fault Refusal) : Prop :=
  ∃ t t', o = .next t ∧ o' = .next t' ∧ AgreeButRecord t t' ∧
    (t.phase = .idle → t'.resStatus = t.resStatus ∧ t'.resFlag = t.resFlag)

theorem endAlike_complete {u u' : State} (h : AgreeButRecord u u') (st : Status) (flag : Bool) (line : List Byte) :
    EndAlike (.next (complete st flag line u)) (.next (complete st flag line u')) := by
  obtain ⟨_, _, _, _, rfl⟩ := h
  exact ⟨_, _, rfl, rfl, ⟨_, _, _, _, rfl⟩, fun _ => ⟨rfl, rfl⟩⟩

theorem endAlike_raise {u u' : State} (h : AgreeButRecord u u') (e : Status) :
    EndAlike (.next (raise e u)) (.next (raise e u')) := by
  obtain ⟨_, _, _, _, rfl⟩ := h
  exact ⟨_, _, rfl, rfl, ⟨_, _, _, _, rfl⟩, fun _ => ⟨rfl, rfl⟩⟩

theorem endAlike_startLine {u u' : State} (h : AgreeButRecord u u') (k : Exchange) :
    EndAlike (.next (startLine k u)) (.next (startLine k u')) := by
  obtain ⟨_, _, _, _, rfl⟩ := h
  exact ⟨_, _, rfl, rfl, ⟨_, _, _, _, rfl⟩, nofun⟩

/-- Every operation ends alike in states that agree. -/
theorem exec_endAlike (i : Instr) {s s' : State} (h : AgreeButRecord s s') : EndAlike (exec i s) (exec i s') := by
  cases i with
  | kbPress code =>
    change EndAlike (execKbPress code s) (execKbPress code s')
    simp only [execKbPress, h.pressKeys]
    cases Machine.pressKeys code s with
    | error e => exact endAlike_raise h e
    | ok mk => exact endAlike_complete (h.commitPress _ _) _ _ _
  | kbRelease code => exact endAlike_complete (h.releasePart code) _ _ _
  | kbReleaseAll => exact endAlike_complete (h.setKeys _ _).kbSend _ _ _
  | kbWrite code =>
    change EndAlike (execKbWrite code s) (execKbWrite code s')
    simp only [execKbWrite, h.pressKeys]
    cases Machine.pressKeys code s with
    | error e => exact endAlike_complete (h.releasePart code) _ _ _
    | ok mk => exact endAlike_complete ((h.commitPress _ _).releasePart code) _ _ _
  | msMove dx dy dw => exact endAlike_complete (h.msSend dx dy dw) _ _ _
  | msClick mask =>
    change EndAlike (execMsClick mask s) (execMsClick mask s')
    rw [execMsClick, execMsClick, h.btn]
    exact endAlike_complete ((h.sendButtons _).sendButtons _) _ _ _
  | msPress mask =>
    change EndAlike (execMsPress mask s) (execMsPress mask s')
    rw [execMsPress, execMsPress, h.btn]
    exact endAlike_complete (h.updateButtons _) _ _ _
  | msRelease mask =>
    change EndAlike (execMsRelease mask s) (execMsRelease mask s')
    rw [execMsRelease, execMsRelease, h.btn]
    exact endAlike_complete (h.updateButtons _) _ _ _
  | msIsPressed mask =>
    change EndAlike (execMsIsPressed mask s) (execMsIsPressed mask s')
    rw [execMsIsPressed, execMsIsPressed, h.btn]
    exact endAlike_complete h _ _ _
  | rlEnterCmd => exact endAlike_startLine (((h.requireMode .data).sendBytes _).sendBytes _) _
  | rlSendCmd text => exact endAlike_startLine ((h.requireMode .command).sendBytes text) _
  | rlExitCmd => exact endAlike_complete (((h.requireMode .command).sendBytes _).setMode .data) _ _ _
  | rlSendReport bytes => exact endAlike_complete (h.sendFramed bytes) _ _ _
  | rlSendControl flags bytes => exact endAlike_complete (h.sendBytes bytes) _ _ _
  | hidSendReport id data => exact endAlike_complete (h.sendFramed (id :: data)) _ _ _
  | hidGetInterface | hidGetDescriptor | hidSetup => exact endAlike_complete h _ _ _

/-! ### The line read and the other turns (R10, R38) -/

/-- The same status, flag and line in the result latch. -/
def SameResult (t t' : State) : Prop :=
  t'.resStatus = t.resStatus ∧ t'.resFlag = t.resFlag ∧ t'.resLine = t.resLine

/-- The end of a line overwrites the whole result latch. -/
theorem finishLine_agree (k : Exchange) {s s' : State} (h : AgreeButRecord s s') :
    AgreeButRecord (finishLine k s) (finishLine k s') ∧ SameResult (finishLine k s) (finishLine k s') := by
  obtain ⟨_, _, _, _, rfl⟩ := h
  cases k with
  | enter =>
    by_cases hr : s.resp = Config.cmdOk <;> simp only [finishLine, finishEnter, hr, if_true, if_false]
    · exact ⟨⟨_, _, _, _, rfl⟩, rfl, rfl, rfl⟩
    · exact ⟨⟨_, _, _, _, rfl⟩, rfl, rfl, rfl⟩
  | cmd => exact ⟨⟨_, _, _, _, rfl⟩, rfl, rfl, rfl⟩

/-- A byte of a line read does the same in both runs, and if it ends the read the results are the same. -/
theorem takeLineByte_agree {k : Exchange} (b : Byte) {s s' : State} (h : AgreeButRecord s s')
    (hp : s.phase = .readLine k) : AgreeButRecord (takeLineByte k b s) (takeLineByte k b s') ∧
      ((takeLineByte k b s).phase = .idle → SameResult (takeLineByte k b s) (takeLineByte k b s')) := by
  have hfinish := finishLine_agree k h
  obtain ⟨_, _, _, _, rfl⟩ := h
  by_cases hb : b = 0x0D#8
  · subst hb
    rw [takeLineByte_cr, takeLineByte_cr]
    exact ⟨hfinish.1, fun _ => hfinish.2⟩
  · by_cases hl : s.resp.length = s.params.respCap
    · rw [takeLineByte_overflow k hb hl]
      exact ⟨⟨_, _, _, _, takeLineByte_overflow k hb hl⟩, nofun⟩
    · rw [takeLineByte_append k hb hl]
      exact ⟨⟨_, _, _, _, takeLineByte_append k hb hl⟩, fun hidle => nomatch hp.symm.trans hidle⟩

/-- The outcome `o'` is a next state that agrees with `t`, and that has the same result if the step from `s` to `t` ended
a line read. -/
def AnswersAlike (s t : State) (o' : Host.Outcome State Fault Refusal) : Prop :=
  ∃ t', o' = .next t' ∧ AgreeButRecord t t' ∧ (∀ k, s.phase = .readLine k → t.phase = .idle → SameResult t t')

theorem blockStep_answersAlike {offered : Bool} {s s' t : State} (h : AgreeButRecord s s')
    (hb : blockStep offered s = .next t) : AnswersAlike s t (blockStep offered s') := by
  obtain ⟨f, st, fl, ln, rfl⟩ := h
  rcases blockStep_cases hb with ⟨hp, hv, i, hd, he⟩ | ⟨hp, hv, ⟨e, hd⟩, rfl⟩ | ⟨k, b, rest, hp, hrx, rfl⟩ |
    ⟨k, hp, hrx, rfl, hen, rfl⟩
  · obtain ⟨u, u', hu, hu', hagree, _⟩ :=
      exec_endAlike i (s := { s with reqValid := false }) ⟨f, st, fl, ln, rfl⟩
    obtain rfl : t = u := Host.Outcome.next.inj (he.symm.trans hu)
    refine ⟨u', Eq.trans ?_ hu', hagree, fun k hk => nomatch hp.symm.trans hk⟩
    exact blockStep_legal hp hv hd
  · exact ⟨_, blockStep_illegal hp hv hd, ⟨_, _, _, _, rfl⟩, fun k hk => nomatch hp.symm.trans hk⟩
  · obtain ⟨hagree, hresult⟩ :=
      takeLineByte_agree b (s := { s with rx := rest }) ⟨f, st, fl, ln, rfl⟩ hp
    exact ⟨_, blockStep_line hp hrx, hagree, fun _ _ => hresult⟩
  · exact ⟨_, blockStep_timeout hp hrx hen, ⟨_, _, _, _, rfl⟩, fun _ _ _ => ⟨rfl, rfl, rfl⟩⟩

theorem takeTurn_answersAlike (turn : Turn) {s s' t : State} (h : AgreeButRecord s s')
    (ht : takeTurn turn s = .next t) : AnswersAlike s t (takeTurn turn s') := by
  cases turn with
  | block => exact blockStep_answersAlike h ht
  | timeout => exact blockStep_answersAlike h ht
  | host req opnd =>
    obtain ⟨_, _, _, _, rfl⟩ := h
    obtain ⟨hp, hv, rfl⟩ := hostPresent_eq_next ht
    exact ⟨_, hostPresent_of_ready ⟨beq_iff_eq.mpr hp, hv⟩, ⟨_, _, _, _, rfl⟩, fun k hk => nomatch hp.symm.trans hk⟩
  | peerSend b =>
    obtain ⟨_, _, _, _, rfl⟩ := h
    cases ht
    exact ⟨_, rfl, ⟨_, _, _, _, rfl⟩, fun k hk hidle => nomatch hk.symm.trans hidle⟩
  | peerTake =>
    obtain ⟨_, _, _, _, rfl⟩ := h
    obtain ⟨hlt, rfl⟩ := peerTake_eq_next ht
    exact ⟨_, peerTake_of_lt hlt, ⟨_, _, _, _, rfl⟩, fun k hk hidle => nomatch hk.symm.trans hidle⟩
  | peerMode m =>
    obtain ⟨_, _, _, _, rfl⟩ := h
    cases ht
    exact ⟨_, rfl, ⟨_, _, _, _, rfl⟩, fun k hk hidle => nomatch hk.symm.trans hidle⟩
  | reset =>
    obtain ⟨_, _, _, _, rfl⟩ := h
    cases ht
    exact ⟨_, rfl, ⟨_, _, _, _, rfl⟩, fun _ _ _ => ⟨rfl, rfl, rfl⟩⟩

theorem step_answersAlike {s s' t : State} (h : AgreeButRecord s s') (hs : step s = .next t) :
    AnswersAlike s t (step s') := by
  cases hturns : s.turns with
  | nil =>
    rw [step_of_no_turns hturns] at hs
    rw [step_of_no_turns (h.turns.trans hturns)]
    exact blockStep_answersAlike h hs
  | cons turn ts =>
    rw [step_of_turn hturns] at hs
    rw [step_of_turn (h.turns.trans hturns)]
    have hanswer := takeTurn_answersAlike turn (h.setTurns ts) hs
    exact hanswer

/-- Settles O53: states that agree but for the record end an operation alike and answer every turn alike. -/
theorem noOperationReadsFaultOrResult : Obligations.NoOperationReadsFaultOrResult := by
  refine ⟨fun i s f st fl ln => ?_, fun s t f st fl ln hs => ?_⟩
  · obtain ⟨t, t', ht, ht', hagree, hresult⟩ := exec_endAlike i (s := s) ⟨f, st, fl, ln, rfl⟩
    exact ⟨t, t', ht, ht', hagree.eq, hresult⟩
  · obtain ⟨t', ht', hagree, hresult⟩ := step_answersAlike ⟨f, st, fl, ln, rfl⟩ hs
    exact ⟨t', ht', hagree.eq, hresult⟩

end Sys2Proof.Machine

/-! PROOFS. The encoder read forwards: what the decoder finds in the request of an instruction (R71, R77, R78, R81). -/

namespace Sys2Proof

/-! ### The request of an instruction passes the checks of its format (R71, R78) -/

theorem formatCheck_wordN (o : Op) (cap : Fin 65536) (opnd : List Byte) :
    formatCheck .n cap (wordN o) opnd = none :=
  if_neg (not_not_intro (reservedN_wordN o))

/-- Formats K and B have the same reserved field. -/
theorem formatCheck_wordKB {f : Format} (hf : f = .k ∨ f = .b) (o : Op) (x : Byte) (cap : Fin 65536)
    (opnd : List Byte) : formatCheck f cap (wordKB o x) opnd = none := by
  have hreserved := not_not_intro (reservedKB_wordKB o x)
  rcases hf with rfl | rfl
  · exact if_neg hreserved
  · exact if_neg hreserved

/-- Every capacity is below `2 ^ 16`, so a sequence that fits is counted by `LEN` without loss (R9, R76). -/
theorem checkLength_wordS (o : Op) (x : Byte) {cap : Fin 65536} {opnd : List Byte} (h : opnd.length ≤ cap.val) :
    checkLength cap (wordS o x opnd) opnd = none := by
  have hlen := lenField_wordS o x opnd (Nat.lt_of_le_of_lt h cap.isLt)
  exact checkLength_eq_none.mpr ⟨hlen, hlen.trans_le h⟩

theorem formatCheck_wordS0 (o : Op) {cap : Fin 65536} {opnd : List Byte} (h : opnd.length ≤ cap.val) :
    formatCheck .s0 cap (wordS o 0#8 opnd) opnd = none :=
  (if_neg (not_not_intro (xField_wordS o 0#8 opnd))).trans (checkLength_wordS o 0#8 h)

theorem formatCheck_encode {cap : Fin 65536} {i : Instr} (h : i.wellFormed cap = true) :
    formatCheck i.op.format cap (encode i).word (encode i).opnd = none := by
  cases i with
  | kbReleaseAll | rlEnterCmd | rlExitCmd | hidGetInterface | hidGetDescriptor | hidSetup =>
    exact formatCheck_wordN _ cap []
  | kbPress x | kbRelease x | kbWrite x => exact formatCheck_wordKB (.inl rfl) _ x cap []
  | msClick x | msPress x | msRelease x | msIsPressed x => exact formatCheck_wordKB (.inr rfl) _ x cap []
  | msMove => rfl
  | rlSendCmd | rlSendReport => exact formatCheck_wordS0 _ (operandFits_iff.mp h)
  | rlSendControl x | hidSendReport x => exact checkLength_wordS _ x (operandFits_iff.mp h)

/-! ### The fields of the request are the instruction's (R70 to R72, R77) -/

theorem opField_encode (i : Instr) : opField (encode i).word = i.op.code := by
  cases i with
  | kbReleaseAll | rlEnterCmd | rlExitCmd | hidGetInterface | hidGetDescriptor | hidSetup => exact opField_wordN _
  | kbPress x | kbRelease x | kbWrite x | msClick x | msPress x | msRelease x | msIsPressed x =>
    exact opField_wordKB _ x
  | msMove dx dy dw => exact opField_wordM _ dx dy dw
  | rlSendCmd | rlSendReport | rlSendControl | hidSendReport => exact opField_wordS _ _ _

theorem assembleOperands_encode (i : Instr) : assembleOperands i.op (encode i).word (encode i).opnd = i := by
  cases i with
  | kbReleaseAll | rlEnterCmd | rlExitCmd | hidGetInterface | hidGetDescriptor | hidSetup => rfl
  | kbPress | kbRelease | kbWrite | msClick | msPress | msRelease | msIsPressed =>
    simp only [Instr.op, encode, assembleOperands, xField_wordKB]
  | msMove => simp only [Instr.op, encode, assembleOperands, xField_wordM, dyField_wordM, dwField_wordM]
  | rlSendCmd | rlSendReport => rfl
  | rlSendControl | hidSendReport => simp only [Instr.op, encode, assembleOperands, xField_wordS]

theorem opnd_encode_fits {cap : Fin 65536} {i : Instr} (h : i.wellFormed cap = true) :
    (encode i).opnd.length ≤ cap.val := by
  cases i with
  | rlSendCmd | rlSendReport | rlSendControl | hidSendReport => exact operandFits_iff.mp h
  | _ => exact Nat.zero_le _

/-! ### The round trip -/

/-- Settles O1: the request of a well-formed instruction names its operation, passes the checks of its format, and holds
the operands in the fields they are assembled from. -/
theorem decodeOfEncodeIsTheInstruction : Obligations.DecodeOfEncodeIsTheInstruction := by
  intro cap i h
  have hop : Op.ofByte? (opField (encode i).word) = some i.op := by rw [opField_encode, Op.ofByte?_code]
  exact decode_eq_ok.mpr
    ⟨opnd_encode_fits h, i.op, hop, formatCheck_encode h, (assembleOperands_encode i).symm⟩

/-- A request known to be an instruction's encoding decodes to it. -/
theorem decode_of_encode_eq {cap : Fin 65536} {req : Word} {opnd : List Byte} {i : Instr}
    (henc : encode i = ⟨req, opnd⟩) (hwf : i.wellFormed cap = true) : decode cap req opnd = .ok i := by
  have h := decodeOfEncodeIsTheInstruction cap i hwf
  rwa [henc] at h

/-- Settles O4: each word of R81 is the encoding of its instruction, so O1 reads it back. -/
theorem exampleWordsDecode : Obligations.ExampleWordsDecode :=
  ⟨decode_of_encode_eq (by decide) rfl, decode_of_encode_eq (by decide) rfl, decode_of_encode_eq (by decide) rfl,
    decode_of_encode_eq (by decide) rfl, decode_of_encode_eq (by decide) rfl, decode_of_encode_eq (by decide) rfl⟩

end Sys2Proof

/-! PROOFS. The operations that send a frame of bytes the host gives: RL_SEND_REPORT and HID_SEND_REPORT (R83, R151,
R158, R180, R181). -/

namespace Sys2Proof.Machine

open Spec

/-- The three fields of a format S word, `LEN` being the operand count modulo `2 ^ 16` (R71, R76). -/
theorem sequenceRequest_wordS (o : Op) (x : Byte) (opnd : List Byte) :
    sequenceRequest ⟨wordS o x opnd, opnd⟩ x o.code opnd := by
  refine ⟨field_eq 16 16 _ _ fun i hi => ?_, xField_wordS o x opnd, opField_wordS o x opnd, rfl⟩
  simp (disch := omega) only [wordS, BitVec.getLsbD_or, getLsbD_place_hit 16, getLsbD_place_above 8,
    getLsbD_place_above 0, Bool.or_false]

/-- The model's frame is the one R83 writes, for an empty payload too. -/
theorem frame_eq_wireFrame (p : List Byte) : frame p = wireFrame p := by cases p <;> rfl

/-- A send of one frame that ends its operation with success (R14, R151, R204). -/
theorem complete_sendFramed (p : List Byte) (s : State) : complete .ok true [] (sendFramed p s) = { s with
    tx := s.tx ++ wireFrame p
    fault := dataFault s
    resStatus := 0x00#8, resFlag := true, resLine := [], phase := .idle } := by
  rw [sendFramed_eq, frame_eq_wireFrame, contractFault_data]
  rfl

/-- Settles O40: the operation is one framed send of its bytes. -/
theorem rlSendReportFramesItsBytes : Obligations.RlSendReportFramesItsBytes := by
  intro s bytes
  exact ⟨sequenceRequest_wordS .rlSendReport 0#8 bytes, congrArg Host.Outcome.next (complete_sendFramed bytes s)⟩

/-- Settles O42: the operation is one framed send of the id and the data, whose first byte is the id. -/
theorem hidSendReportPrependsTheId : Obligations.HidSendReportPrependsTheId := by
  intro s id data
  refine ⟨sequenceRequest_wordS .hidSendReport id data, ?_⟩
  rw [List.append_assoc]
  exact congrArg Host.Outcome.next (complete_sendFramed (id :: data) s)

end Sys2Proof.Machine

/-! PROOFS. A usage put into an empty slot and cleared again, and a key file that holds a list of usages in order (R23,
R102, R104). -/

namespace Sys2Proof.Machine

open Spec

/-- Releasing a usage that no slot holds leaves the file. -/
theorem KeyFile.clear_of_absent {u : Byte} {k : KeyFile} (habsent : ∀ i, k.get i ≠ u) : k.clear u = k :=
  KeyFile.ext_get fun i => by rw [KeyFile.get_clear, if_neg (habsent i)]

/-- A usage that was absent and is put into an empty slot is the only one its release clears (R109). -/
theorem KeyFile.clear_set {u : Byte} {k : KeyFile} {j : Fin 6} (habsent : ∀ i, k.get i ≠ u) (hj : k.get j = 0#8) :
    (k.set j u).clear u = k := by
  refine KeyFile.ext_get fun i => ?_
  rw [KeyFile.get_clear]
  by_cases hi : i = j
  · rw [hi, KeyFile.get_set_same, if_pos rfl, hj]
  · rw [KeyFile.get_set_ne k u hi, if_neg (habsent i)]

/-- If some slot is empty, one of them is the first. -/
theorem KeyFile.exists_firstEmpty {k : KeyFile} {j : Fin 6} (hj : k.get j = 0#8) : ∃ p, firstEmpty k p := by
  cases hp : k.firstEmpty? with
  | none => exact absurd hj (KeyFile.firstEmpty?_eq_none.mp hp j)
  | some p => exact ⟨p, KeyFile.firstEmpty?_eq_some.mp hp⟩

/-- The key file whose first slots hold the usages of a list in order, the slots after them being empty. -/
def KeyFile.ofList (us : List Byte) : KeyFile :=
  ⟨us.getD 0 0#8, us.getD 1 0#8, us.getD 2 0#8, us.getD 3 0#8, us.getD 4 0#8, us.getD 5 0#8⟩

@[simp] theorem KeyFile.get_ofList (us : List Byte) (i : Fin 6) : (KeyFile.ofList us).get i = us.getD i 0#8 := by
  fin_cases i <;> rfl

/-- Each slot holds a usage of the list or is empty. -/
theorem KeyFile.get_ofList_ne {us : List Byte} {u : Byte} (hu : u ∉ us) (h0 : u ≠ 0#8) (i : Fin 6) :
    (KeyFile.ofList us).get i ≠ u := by
  rw [KeyFile.get_ofList]
  rcases Nat.lt_or_ge i us.length with hlt | hge
  · rw [List.getD_eq_getElem _ _ hlt]
    exact fun h => hu (h ▸ List.getElem_mem hlt)
  · rw [List.getD_eq_default _ _ hge]
    exact h0.symm

/-- The first empty slot is the one after the last usage, none of them being 0 (R102). -/
theorem KeyFile.firstEmpty_ofList {us : List Byte} (h0 : 0#8 ∉ us) (hlen : us.length < 6) :
    firstEmpty (KeyFile.ofList us) ⟨us.length, hlen⟩ := by
  refine ⟨?_, fun i hi => ?_⟩
  · rw [KeyFile.get_ofList, List.getD_eq_default _ _ (Nat.le_refl _)]
  · rw [KeyFile.get_ofList, List.getD_eq_getElem _ _ hi]
    exact fun h => h0 (h ▸ List.getElem_mem hi)

/-- Setting the slot after the last usage appends to the list. -/
theorem KeyFile.set_ofList (us : List Byte) (hlen : us.length < 6) (u : Byte) :
    (KeyFile.ofList us).set ⟨us.length, hlen⟩ u = KeyFile.ofList (us ++ [u]) := by
  refine KeyFile.ext_get fun i => ?_
  rw [KeyFile.get_ofList]
  rcases Nat.lt_trichotomy i us.length with hlt | heq | hgt
  · rw [KeyFile.get_set_ne _ _ (Fin.ne_of_lt hlt), KeyFile.get_ofList, List.getD_append _ _ _ _ hlt]
  · obtain rfl : i = ⟨us.length, hlen⟩ := Fin.ext heq
    rw [KeyFile.get_set_same, List.getD_append_right _ _ _ _ (Nat.le_refl _), Nat.sub_self, List.getD_cons_zero]
  · rw [KeyFile.get_set_ne _ _ (Fin.ne_of_gt hgt), KeyFile.get_ofList, List.getD_eq_default _ _ hgt.le,
      List.getD_eq_default _ _ (by rw [List.length_append]; exact hgt)]

end Sys2Proof.Machine

/-! PROOFS. The keyboard operations on keys: what a press and a release commit for each class of code, the report that
ends an operation, and KB_WRITE as the two together (R71, R100 to R107, R109). -/

namespace Sys2Proof.Machine

open Spec

/-! ### Bits set and cleared again (R22) -/

/-- Clearing bits makes no difference to whether they were set before. -/
theorem bits_or_and_not (m b : Byte) : (m ||| b) &&& ~~~b = m &&& ~~~b := by
  refine BitVec.eq_of_getLsbD_eq fun i hi => ?_
  simp only [BitVec.getLsbD_and, BitVec.getLsbD_or, BitVec.getLsbD_not]
  cases b.getLsbD i <;> simp

/-- Clearing bits that are clear changes nothing. -/
theorem bits_and_not_of_disjoint {m b : Byte} (h : m &&& b = 0#8) : m &&& ~~~b = m := by
  refine BitVec.eq_of_getLsbD_eq fun i hi => ?_
  have hbit := congrArg (BitVec.getLsbD · i) h
  simp only [BitVec.getLsbD_and, BitVec.getLsbD_zero] at hbit
  simp only [BitVec.getLsbD_and, BitVec.getLsbD_not, hi, decide_true, Bool.true_and]
  cases hb : b.getLsbD i with
  | false => simp
  | true => simpa [hb] using hbit.symm

/-! ### What a press and a release commit (R103, R104) -/

/-- A key whose usage `SlotPlace` can place commits the new file and its shift bits, which a non-printing key has none
of. -/
theorem pressKeys_of_placed {code u : Byte} {shift : Bool} {s : State} {k : KeyFile}
    (h : keyUsage s.asciiMap code u shift) (hk : slotPlace u s.keys = some k) :
    pressKeys code s = .ok (s.mod ||| shiftBits shift s, k) := by
  rcases translate_keyUsage h with ht | ⟨ht, rfl⟩
  · simp only [pressKeys, ht, hk, shiftBits]
  · simp only [pressKeys, ht, hk, shiftBits, Bool.false_eq_true, if_false, BitVec.or_zero]

theorem pressKeys_of_held {code u : Byte} {shift : Bool} {s : State} {i : Fin 6}
    (h : keyUsage s.asciiMap code u shift) (hi : s.keys.get i = u) :
    pressKeys code s = .ok (s.mod ||| shiftBits shift s, s.keys) :=
  pressKeys_of_placed h (slotPlace_held ⟨i, hi⟩)

theorem pressKeys_of_new {code u : Byte} {shift : Bool} {s : State} {j : Fin 6}
    (h : keyUsage s.asciiMap code u shift) (habsent : ∀ i, s.keys.get i ≠ u) (hj : firstEmpty s.keys j) :
    pressKeys code s = .ok (s.mod ||| shiftBits shift s, s.keys.set j u) :=
  pressKeys_of_placed h (slotPlace_first habsent hj.1 hj.2)

/-- An error of the press part is not reported as OK. -/
theorem pressKeys_error_code_ne {code : Byte} {s : State} {e : Status} (h : pressKeys code s = .error e) :
    e.code ≠ 0x00#8 := by
  rcases pressKeys_eq_error h with ⟨_, rfl⟩ | ⟨_, _, _, rfl⟩
  · decide
  · decide

theorem releaseKeys_of_modifier {code bit : Byte} {s : State} (h : translate s.asciiMap code = .modifier bit) :
    releaseKeys code s = (s.mod &&& ~~~bit, s.keys) := by
  simp only [releaseKeys, h]

theorem releaseKeys_of_unmapped {code : Byte} {s : State} (h : translate s.asciiMap code = .unmapped) :
    releaseKeys code s = (s.mod, s.keys) := by
  simp only [releaseKeys, h]

theorem releaseKeys_of_key {code u : Byte} {shift : Bool} {s : State} (h : keyUsage s.asciiMap code u shift) :
    releaseKeys code s = (s.mod &&& ~~~(shiftBits shift s), s.keys.clear u) := by
  have hnone : s.mod &&& ~~~0#8 = s.mod := bits_and_not_of_disjoint BitVec.and_zero
  rcases translate_keyUsage h with ht | ⟨ht, rfl⟩
  · cases shift <;> simp only [releaseKeys, ht, shiftBits, Bool.false_eq_true, if_false, if_true, hnone]
  · simp only [releaseKeys, ht, shiftBits, Bool.false_eq_true, if_false, hnone]

/-! ### The report that ends an operation (R14, R101) -/

/-- The end of an operation that commits `m` and `k`, sends their report and completes with `st` and `flag`. -/
def reported (st : Status) (flag : Bool) (m : Byte) (k : KeyFile) (s : State) : State :=
  complete st flag [] (kbSend { s with mod := m, keys := k })

/-- All that such an end writes, in the words of R84 and R204. -/
theorem reported_eq (st : Status) (flag : Bool) (m : Byte) (k : KeyFile) (s : State) :
    reported st flag m k s = { s with
      mod := m, keys := k, tx := s.tx ++ keyboardFrame m k, fault := dataFault s,
      resStatus := st.code, resFlag := flag, resLine := [], phase := .idle } := by
  rw [reported, kbSend_eq, contractFault_data]
  rfl

/-- The second of two reports overwrites all that the first wrote but TX; both record the same fault (R202). -/
theorem reported_reported (st st' : Status) (flag flag' : Bool) (m m' : Byte) (k k' : KeyFile) (s : State) :
    reported st' flag' m' k' (reported st flag m k s) = { s with
      mod := m', keys := k', tx := s.tx ++ keyboardFrame m k ++ keyboardFrame m' k', fault := dataFault s,
      resStatus := st'.code, resFlag := flag', resLine := [], phase := .idle } := by
  have hfault : dataFault (reported st flag m k s) = dataFault s := by
    rw [← contractFault_data, ← contractFault_data]
    exact contractFault_again .data (by rw [reported_eq]) (by rw [reported_eq, contractFault_data])
  rw [reported_eq, hfault, reported_eq]

@[simp] theorem reported_keys (st : Status) (flag : Bool) (m : Byte) (k : KeyFile) (s : State) :
    (reported st flag m k s).keys = k := by rw [reported_eq]
@[simp] theorem reported_mod (st : Status) (flag : Bool) (m : Byte) (k : KeyFile) (s : State) :
    (reported st flag m k s).mod = m := by rw [reported_eq]
@[simp] theorem reported_asciiMap (st : Status) (flag : Bool) (m : Byte) (k : KeyFile) (s : State) :
    (reported st flag m k s).asciiMap = s.asciiMap := by rw [reported_eq]
@[simp] theorem reported_params (st : Status) (flag : Bool) (m : Byte) (k : KeyFile) (s : State) :
    (reported st flag m k s).params = s.params := by rw [reported_eq]
@[simp] theorem reported_resStatus (st : Status) (flag : Bool) (m : Byte) (k : KeyFile) (s : State) :
    (reported st flag m k s).resStatus = st.code := rfl

/-- A release sees the committed registers and nothing else of the report (R37). -/
theorem releaseKeys_reported (code : Byte) (st : Status) (flag : Bool) (m : Byte) (k : KeyFile) (s : State) :
    releaseKeys code (reported st flag m k s) = releaseKeys code { s with mod := m, keys := k } :=
  releaseKeys_congr code (reported_asciiMap ..) (reported_mod ..) (reported_keys ..) (reported_params ..)

/-- A report is of 11 bytes (R84). -/
theorem reported_tx_length (st : Status) (flag : Bool) (m : Byte) (k : KeyFile) (s : State) :
    (reported st flag m k s).tx.length = s.tx.length + 11 := by
  rw [reported_eq]
  exact List.length_append

/-- What was in the result latch and the phase before does not matter to such an end. -/
theorem reported_complete (st st' : Status) (flag flag' : Bool) (line : List Byte) (m : Byte) (k : KeyFile)
    (s : State) : reported st flag m k (complete st' flag' line s) = reported st flag m k s := by
  rw [reported_eq, reported_eq]
  rfl

/-! ### The operations (R103 to R106) -/

theorem exec_kbPress_reported {code m : Byte} {k : KeyFile} {s : State} (h : pressKeys code s = .ok (m, k)) :
    exec (.kbPress code) s = .next (reported .ok true m k s) := by
  rw [exec_kbPress_of_ok h, reported_eq]
  rfl

theorem exec_kbRelease {code m : Byte} {k : KeyFile} {s : State} (h : releaseKeys code s = (m, k)) :
    exec (.kbRelease code) s = .next (reported .ok true m k s) := by
  change execKbRelease code s = _
  rw [execKbRelease, releasePart, h]
  rfl

/-- A failed press part has changed nothing, so the release part starts from the same state (R106). -/
theorem exec_kbWrite_of_error {code m : Byte} {k : KeyFile} {s : State} {e : Status}
    (hp : pressKeys code s = .error e) (hr : releaseKeys code s = (m, k)) :
    exec (.kbWrite code) s = .next (reported e false m k s) := by
  change execKbWrite code s = _
  simp only [execKbWrite, hp, releasePart, hr]
  rfl

/-- After a press part that succeeded, KB_WRITE goes on as KB_RELEASE does after KB_PRESS: the release does not look at
the result latch that KB_PRESS has written in between (C5). -/
theorem exec_kbWrite_of_ok {code m : Byte} {k : KeyFile} {s : State} (hp : pressKeys code s = .ok (m, k)) :
    exec (.kbWrite code) s = exec (.kbRelease code) (reported .ok true m k s) := by
  have hrelease : releaseKeys code (reported .ok true m k s) = releaseKeys code (commitPress m k s) :=
    releaseKeys_congr code rfl rfl rfl rfl
  rw [exec_kbRelease (Prod.eta _).symm, hrelease]
  change execKbWrite code s = .next (reported _ _ _ _ (complete .ok true [] (commitPress m k s)))
  rw [reported_complete]
  simp only [execKbWrite, hp]
  rfl

/-- Settles O14: the presence test comes first, so the press part succeeds with the file as it is. -/
theorem kbPressOfAHeldKey : Obligations.KbPressOfAHeldKey := by
  intro s code u shift i hkey hi
  exact exec_kbPress_of_ok (pressKeys_of_held hkey hi)

/-- Settles O15: `SlotPlace` answers the file with the first empty slot set. -/
theorem kbPressFillsTheFirstEmptySlot : Obligations.KbPressFillsTheFirstEmptySlot := by
  intro s code u shift j hkey habsent hj
  exact exec_kbPress_of_ok (pressKeys_of_new hkey habsent hj)

/-- Settles O17: whatever the class of the code, the release reports what `releaseKeys` commits for it. -/
theorem kbReleaseClearsAndTransmits : Obligations.KbReleaseClearsAndTransmits := by
  intro s code
  refine ⟨wordBytes_wordKB .kbRelease code, (releaseKeys code s).1, (releaseKeys code s).2, ?_,
    fun hlo hhi => ?_, fun hun => ?_, fun u shift hkey => ?_⟩
  · rw [exec_kbRelease (Prod.eta _).symm, reported_eq]
    rfl
  · rw [releaseKeys_of_modifier (translate_modifierBit s.asciiMap hlo hhi)]
    exact ⟨rfl, rfl⟩
  · rw [releaseKeys_of_unmapped (translate_unmapped hun)]
    exact ⟨rfl, rfl⟩
  · rw [releaseKeys_of_key hkey]
    exact ⟨rfl, KeyFile.get_clear u s.keys⟩

/-- Settles O18: the operation is one report of the empty registers. -/
theorem kbReleaseAllEmptiesTheReport : Obligations.KbReleaseAllEmptiesTheReport := by
  intro s
  exact ⟨by decide, congrArg Host.Outcome.next (reported_eq .ok true 0#8 KeyFile.empty s)⟩

/-- Settles O22: a KB_PRESS that reports OK is one whose press part succeeded. -/
theorem kbWriteIsPressThenRelease : Obligations.KbWriteIsPressThenRelease := by
  intro s t code hpress hok
  cases hp : pressKeys code s with
  | error e =>
    rw [exec_kbPress_of_error hp] at hpress
    cases hpress
    exact absurd hok (pressKeys_error_code_ne hp)
  | ok mk =>
    rw [exec_kbPress_reported hp] at hpress
    cases hpress
    exact exec_kbWrite_of_ok hp

/-- A KB_WRITE whose press part succeeds sends what it commits and then what the release makes of that. -/
theorem exec_kbWrite_reports {code m m' : Byte} {k k' : KeyFile} {s : State} (hp : pressKeys code s = .ok (m, k))
    (hr : releaseKeys code (reported .ok true m k s) = (m', k')) :
    exec (.kbWrite code) s = .next { s with
      mod := m', keys := k', tx := s.tx ++ keyboardFrame m k ++ keyboardFrame m' k', fault := dataFault s,
      resStatus := 0x00#8, resFlag := true, resLine := [], phase := .idle } := by
  rw [exec_kbWrite_of_ok hp, exec_kbRelease hr, reported_reported]
  rfl

/-- What a key's release leaves after the press that put its usage into the empty slot `j`: the file as it was, and the
shift bits clear (R104, R109). -/
theorem releaseKeys_after_press {code u : Byte} {shift : Bool} {s : State} {j : Fin 6}
    (hkey : keyUsage s.asciiMap code u shift) (habsent : ∀ i, s.keys.get i ≠ u) (hj : s.keys.get j = 0#8) :
    releaseKeys code (reported .ok true (s.mod ||| shiftBits shift s) (s.keys.set j u) s) =
      (s.mod &&& ~~~(shiftBits shift s), s.keys) := by
  rw [releaseKeys_reported]
  exact (releaseKeys_of_key (s := { s with mod := s.mod ||| shiftBits shift s, keys := s.keys.set j u }) hkey).trans
    (Prod.ext (bits_or_and_not s.mod _) (KeyFile.clear_set habsent hj))

/-- Settles O19: the press of a new key, and the release after it. -/
theorem kbWriteTypesOneKey : Obligations.KbWriteTypesOneKey := by
  intro s code u shift j hkey habsent hj
  exact ⟨wordBytes_wordKB .kbWrite code,
    exec_kbWrite_reports (pressKeys_of_new hkey habsent hj) (releaseKeys_after_press hkey habsent hj.1)⟩

/-- Settles O20: the press of a modifier sets its bit, and the release clears it. -/
theorem kbWriteOfAModifier : Obligations.KbWriteOfAModifier := by
  intro s code hlo hhi
  have hmodifier := translate_modifierBit s.asciiMap hlo hhi
  refine exec_kbWrite_reports (pressKeys_of_modifier hmodifier) ?_
  rw [releaseKeys_reported]
  exact (releaseKeys_of_modifier (s := { s with mod := s.mod ||| modifierBit code }) hmodifier).trans
    (congrArg (·, s.keys) (bits_or_and_not s.mod _))

/-- Settles O21: the release of an unmapped code commits nothing, and that of an absent usage clears no slot. -/
theorem kbWriteAfterAFailedPress : Obligations.KbWriteAfterAFailedPress := by
  intro s code
  refine ⟨fun hun => ?_, fun u shift hkey habsent hheld => ?_⟩
  · have hun := translate_unmapped hun
    rw [exec_kbWrite_of_error (pressKeys_of_unmapped hun) (releaseKeys_of_unmapped hun), reported_eq]
    rfl
  · have hfull := pressKeys_of_full hkey (slotPlace_eq_none.mpr ⟨habsent, hheld⟩)
    rw [exec_kbWrite_of_error hfull (releaseKeys_of_key hkey), reported_eq, KeyFile.clear_of_absent habsent]
    rfl

/-- Settles O23: each report of an operation is of 11 bytes, and a raised error sends none. -/
theorem keyboardFrameCounts : Obligations.KeyboardFrameCounts := by
  intro s code
  refine ⟨?_, ⟨_, exec_kbRelease (Prod.eta _).symm, rfl, reported_tx_length _ _ _ _ s⟩,
    ⟨_, rfl, rfl, reported_tx_length _ _ _ _ s⟩, ?_⟩
  · cases hp : pressKeys code s with
    | error e =>
      exact ⟨_, exec_kbPress_of_error hp, by rw [raise_resStatus, if_neg (pressKeys_error_code_ne hp)]; rfl⟩
    | ok mk => exact ⟨_, exec_kbPress_reported hp, reported_tx_length _ _ _ _ s⟩
  · cases hp : pressKeys code s with
    | error e =>
      exact ⟨_, exec_kbWrite_of_error hp (Prod.eta _).symm,
        by rw [reported_tx_length, reported_resStatus, if_neg (pressKeys_error_code_ne hp)]⟩
    | ok mk =>
      refine ⟨_, (exec_kbWrite_of_ok hp).trans (exec_kbRelease (Prod.eta _).symm), ?_⟩
      rw [reported_tx_length, reported_tx_length]
      rfl

/-- Settles O24: the release after the press restores the file, and `MOD` where its shift bits were clear. -/
theorem pressThenReleaseRestores : Obligations.PressThenReleaseRestores := by
  intro s code u shift j _ hkey habsent hj hclear
  obtain ⟨p, hp⟩ := KeyFile.exists_firstEmpty hj
  refine ⟨_, _, exec_kbPress_reported (pressKeys_of_new hkey habsent hp), rfl,
    exec_kbRelease (releaseKeys_after_press hkey habsent hp.1), ?_, ?_⟩
  · rw [reported_mod]
    refine bits_and_not_of_disjoint ?_
    cases shift with
    | false => exact BitVec.and_zero
    | true => exact hclear rfl
  · rw [reported_keys]

end Sys2Proof.Machine

/-! PROOFS. Presses of distinct keys one after the other (R102, R103, R110). -/

namespace Sys2Proof.Machine

open Spec

/-- `s` is as presses of keys with the usages `us`, in that order, leave it from empty slots: the usages fill the first
slots, the table is still `m`, and the last press reported OK. -/
structure Filled (m : Vector AsciiEntry 128) (us : List Byte) (s : State) : Prop where
  keys : s.keys = KeyFile.ofList us
  asciiMap : s.asciiMap = m
  status : us ≠ [] → s.resStatus = 0x00#8

/-- One more key, whose usage is new, while a slot is left. -/
theorem filled_press {m : Vector AsciiEntry 128} {us : List Byte} {s : State} {code u : Byte} {shift : Bool}
    (hs : Filled m us s) (hkey : keyUsage m code u shift) (hu : u ∉ us) (hne : u ≠ 0#8) (h0 : 0#8 ∉ us)
    (hlen : us.length < 6) : ∃ t, exec (.kbPress code) s = .next t ∧ Filled m (us ++ [u]) t := by
  obtain ⟨hkeys, rfl, _⟩ := hs
  have habsent : ∀ i, s.keys.get i ≠ u := by rw [hkeys]; exact KeyFile.get_ofList_ne hu hne
  have hfirst : firstEmpty s.keys ⟨us.length, hlen⟩ := by rw [hkeys]; exact KeyFile.firstEmpty_ofList h0 hlen
  refine ⟨_, exec_kbPress_reported (pressKeys_of_new hkey habsent hfirst), ?_, reported_asciiMap .., fun _ => rfl⟩
  rw [reported_keys, hkeys]
  exact KeyFile.set_ofList us hlen u

section
variable {ι : Type} {m : Vector AsciiEntry 128} {c u : ι → Byte} {shift : ι → Bool}

/-- Keys of distinct non-zero usages, at most six in all, fill the slots in the order of their presses: `done` are those
pressed before, `ns` those still to press. -/
theorem filled_pressAll (hkey : ∀ n, keyUsage m (c n) (u n) (shift n)) (hne : ∀ n, u n ≠ 0#8)
    (hinj : Function.Injective u) (ns : List ι) :
    ∀ (done : List ι) (s : State), (done ++ ns).Nodup → (done ++ ns).length ≤ 6 → Filled m (done.map u) s →
      Filled m ((done ++ ns).map u) (pressAll (ns.map c) s) := by
  induction ns with
  | nil => intro done s _ _ hs; rwa [List.append_nil]
  | cons n ns ih =>
    intro done s hnodup hlen hs
    have hnew : n ∉ done := fun hn => (List.nodup_append.mp hnodup).2.2 n hn n List.mem_cons_self rfl
    have hroom : (done.map u).length < 6 := by
      simp only [List.length_append, List.length_cons] at hlen
      rw [List.length_map]
      omega
    have h0 : 0#8 ∉ done.map u := by simp only [List.mem_map, not_exists, not_and]; exact fun x _ => hne x
    obtain ⟨t, ht, hfilled⟩ :=
      filled_press hs (hkey n) (mt (List.mem_map_of_injective hinj).mp hnew) (hne n) h0 hroom
    rw [List.append_cons] at hnodup hlen ⊢
    simp only [List.map_cons, pressAll, ht]
    refine ih (done ++ [n]) t hnodup hlen ?_
    rwa [List.map_append]

end

/-- Settles O25: six keys fill the slots in order, so for the seventh none is empty and none holds its usage. -/
theorem seventhKeyIsRefused : Obligations.SeventhKeyIsRefused := by
  intro s c u shift hkey hne hdistinct hempty
  have hinj : Function.Injective u := fun n n' h => by_contra fun hnn => hdistinct n n' hnn h
  have hstart : Filled s.asciiMap [] s := ⟨hempty, rfl, fun h => absurd rfl h⟩
  have hsix : Filled s.asciiMap [u 0, u 1, u 2, u 3, u 4, u 5] (pressAll [c 0, c 1, c 2, c 3, c 4, c 5] s) :=
    filled_pressAll hkey hne hinj [0, 1, 2, 3, 4, 5] [] s (by decide) (by decide) hstart
  obtain ⟨hkeys, hmap, hstatus⟩ := hsix
  refine ⟨hkeys, hstatus (List.cons_ne_nil _ _), ?_⟩
  have hkey6 := hkey 6
  rw [← hmap] at hkey6
  have hnew : u 6 ∉ [u 0, u 1, u 2, u 3, u 4, u 5] :=
    mt (List.mem_map_of_injective (l := [0, 1, 2, 3, 4, 5]) hinj).mp (by decide)
  have hfull : slotPlace (u 6) (KeyFile.ofList [u 0, u 1, u 2, u 3, u 4, u 5]) = none := by
    refine slotPlace_eq_none.mpr ⟨KeyFile.get_ofList_ne hnew (hne 6), fun i => ?_⟩
    fin_cases i
    exacts [hne 0, hne 1, hne 2, hne 3, hne 4, hne 5]
  rw [← hkeys] at hfull
  exact ⟨_, exec_kbPress_of_error (pressKeys_of_full hkey6 hfull), rfl, rfl, rfl, rfl, rfl⟩

end Sys2Proof.Machine

/-! PROOFS. The mouse operations: what one and two mouse reports write, an update of the buttons that reports only a
change, and the test of a mask bit by bit (R71, R85, R130 to R135). -/

namespace Sys2Proof.Machine

open Spec

/-- The four bytes of a format M word: the three motion bytes and the opcode (R71). -/
theorem wordBytes_wordM (o : Op) (dx dy dw : Byte) : wordBytes (wordM o dx dy dw) dw dy dx o.code :=
  ⟨dwField_wordM o dx dy dw, dyField_wordM o dx dy dw, xField_wordM o dx dy dw, opField_wordM o dx dy dw⟩

/-! ### Mouse reports (R85, R130) -/

/-- All that a mouse report writes, in the words of R85 and R204. -/
theorem msSend_eq_mouseFrame (dx dy dw : Byte) (s : State) :
    msSend dx dy dw s = { s with tx := s.tx ++ mouseFrame s.btn dx dy dw, fault := dataFault s } := by
  rw [msSend_eq, contractFault_data]
  rfl

/-- A write of `BTN` and the report of it. -/
theorem sendButtons_eq (n : Byte) (s : State) :
    sendButtons n s = { s with
      btn := n, tx := s.tx ++ mouseFrame n 0#8 0#8 0#8, fault := dataFault s } := by
  rw [sendButtons, msSend_eq_mouseFrame]
  rfl

/-- The fault that a button report records is not another one for the report after it (R202). -/
theorem dataFault_sendButtons (n : Byte) (s : State) : dataFault (sendButtons n s) = dataFault s := by
  rw [← contractFault_data, ← contractFault_data]
  exact contractFault_again .data (by rw [sendButtons_eq]) (by rw [sendButtons_eq, contractFault_data])

/-- Of two button reports both frames are sent, and the second write of `BTN` stays. -/
theorem sendButtons_sendButtons (n n' : Byte) (s : State) :
    sendButtons n' (sendButtons n s) = { s with
      btn := n', tx := s.tx ++ mouseFrame n 0#8 0#8 0#8 ++ mouseFrame n' 0#8 0#8 0#8, fault := dataFault s } := by
  rw [sendButtons_eq n', dataFault_sendButtons, sendButtons_eq]

/-! ### A report of a change only (R133, R134) -/

theorem updateButtons_of_ne {n : Byte} {s : State} (h : n ≠ s.btn) : updateButtons n s = sendButtons n s :=
  if_neg h

theorem updateButtons_of_eq {n : Byte} {s : State} (h : n = s.btn) : updateButtons n s = s :=
  if_pos h

/-- MS_PRESS and MS_RELEASE end so where they change the buttons to `n`. -/
theorem complete_updateButtons_of_ne {n : Byte} {s : State} (h : n ≠ s.btn) :
    complete .ok true [] (updateButtons n s) = { s with
      btn := n, tx := s.tx ++ mouseFrame n 0#8 0#8 0#8, fault := dataFault s,
      resStatus := 0x00#8, resFlag := true, resLine := [], phase := .idle } := by
  rw [updateButtons_of_ne h, sendButtons_eq]
  rfl

/-- MS_PRESS and MS_RELEASE end so where they leave the buttons as they are. -/
theorem complete_updateButtons_of_eq {n : Byte} {s : State} (h : n = s.btn) :
    complete .ok true [] (updateButtons n s) = { s with
      resStatus := 0x00#8, resFlag := true, resLine := [], phase := .idle } := by
  rw [updateButtons_of_eq h]
  rfl

/-! ### The test of a mask (R135) -/

/-- The model's test compares whole bytes; bit by bit it is an implication. -/
theorem allSet_iff {mask btn : Byte} :
    allSet mask btn = true ↔ ∀ n, n < 8 → mask.getLsbD n = true → btn.getLsbD n = true := by
  rw [allSet, beq_iff_eq, BitVec.eq_of_getLsbD_eq_iff]
  refine forall₂_congr fun n _ => ?_
  rw [BitVec.getLsbD_and, Bool.and_eq_right_iff_imp]

/-! ### The operations (R131 to R135) -/

/-- Settles O30: the operation completes with the model's test of the mask as its flag, and does nothing else. -/
theorem msIsPressedAsksForAllBits : Obligations.MsIsPressedAsksForAllBits := by
  intro s mask
  exact ⟨wordBytes_wordKB .msIsPressed mask, allSet mask s.btn, rfl, allSet_iff⟩

/-- Settles O26: the operation is one mouse report of the motion bytes. -/
theorem msMoveSendsOneReport : Obligations.MsMoveSendsOneReport := by
  intro s dx dy dw
  refine ⟨wordBytes_wordM .msMove dx dy dw, ?_⟩
  change Host.Outcome.next (complete .ok true [] (msSend dx dy dw s)) = _
  rw [msSend_eq_mouseFrame]
  rfl

/-- Settles O27: the operation is two button reports, and the second leaves the mask's bits clear whether or not
they were set before. -/
theorem msClickSendsTwoReports : Obligations.MsClickSendsTwoReports := by
  intro s mask
  refine ⟨wordBytes_wordKB .msClick mask, ?_⟩
  change execMsClick mask s = _
  rw [execMsClick, bits_or_and_not, sendButtons_sendButtons]
  rfl

/-- Settles O28: the operation updates the buttons to those with the mask's bits set. -/
theorem msPressReportsOnlyAChange : Obligations.MsPressReportsOnlyAChange := by
  intro s mask
  exact ⟨wordBytes_wordKB .msPress mask,
    fun hchange => congrArg Host.Outcome.next (complete_updateButtons_of_ne hchange),
    fun hsame => congrArg Host.Outcome.next (complete_updateButtons_of_eq hsame)⟩

/-- Settles O29: the operation updates the buttons to those with the mask's bits clear. -/
theorem msReleaseReportsOnlyAChange : Obligations.MsReleaseReportsOnlyAChange := by
  intro s mask
  exact ⟨wordBytes_wordKB .msRelease mask,
    fun hchange => congrArg Host.Outcome.next (complete_updateButtons_of_ne hchange),
    fun hsame => congrArg Host.Outcome.next (complete_updateButtons_of_eq hsame)⟩

end Sys2Proof.Machine

/-! PROOFS. The first step of the radio operations that send the host's bytes or an entry sequence without a frame:
RL_ENTER_CMD, RL_SEND_CMD and RL_SEND_CONTROL (R152, R153, R155, R159). -/

namespace Sys2Proof.Machine

open Spec

/-- A raw send that ends its operation with success: no frame, and no contract to keep (R159, R204). -/
theorem complete_sendBytes (bytes : List Byte) (s : State) : complete .ok true [] (sendBytes bytes s) = { s with
    tx := s.tx ++ bytes
    resStatus := 0x00#8, resFlag := true, resLine := [], phase := .idle } := rfl

/-- Settles O31: the word is the opcode alone, and the two sends of the first step make one run of four bytes. -/
theorem rlEnterCmdStartsTheEntryLine : Obligations.RlEnterCmdStartsTheEntryLine := by
  intro s
  have hword : wordN .rlEnterCmd = 0x00000020#32 := by decide
  exact ⟨congrArg (Request.mk · []) hword, exec_rlEnterCmd_eq s⟩

/-- Settles O32: the format S word is the one of the text's length, and the first step sends the text alone. -/
theorem rlSendCmdSendsTheTextAndReads : Obligations.RlSendCmdSendsTheTextAndReads := by
  intro s text
  exact ⟨sequenceRequest_wordS .rlSendCmd 0#8 text, exec_rlSendCmd_eq text s⟩

/-- Settles O41: the flags are the word's `X` only, and the operation is one raw send of its bytes. -/
theorem rlSendControlPassesBytesThrough : Obligations.RlSendControlPassesBytesThrough := by
  intro s flags bytes
  exact ⟨sequenceRequest_wordS .rlSendControl flags bytes, congrArg Host.Outcome.next (complete_sendBytes bytes s)⟩

end Sys2Proof.Machine

/-! PROOFS. The facade's enumeration stubs, which do no more than end their operation (R182, R183, R184). -/

namespace Sys2Proof.Machine

open Spec

/-- An operation that ends with success and has done nothing else (R14). -/
theorem complete_ok (s : State) : complete .ok true [] s = { s with
    resStatus := 0x00#8, resFlag := true, resLine := [], phase := .idle } := rfl

/-- The first step of HID_GET_INTERFACE (R182). -/
theorem exec_hidGetInterface (s : State) : exec .hidGetInterface s = .next (complete .ok true [] s) := rfl

/-- The first step of HID_GET_DESCRIPTOR (R183). -/
theorem exec_hidGetDescriptor (s : State) : exec .hidGetDescriptor s = .next (complete .ok true [] s) := rfl

/-- The first step of HID_SETUP (R184). -/
theorem exec_hidSetup (s : State) : exec .hidSetup s = .next (complete .ok true [] s) := rfl

/-- Settles O43: each word is the opcode alone, and each first step only completes with success, whatever the mode. -/
theorem enumerationStubsDoNothing : Obligations.EnumerationStubsDoNothing := by
  intro s
  have hinterface : wordN .hidGetInterface = 0x00000031#32 := by decide
  have hdescriptor : wordN .hidGetDescriptor = 0x00000032#32 := by decide
  have hsetup : wordN .hidSetup = 0x00000033#32 := by decide
  rw [exec_hidGetInterface, exec_hidGetDescriptor, exec_hidSetup, complete_ok]
  exact ⟨⟨congrArg (Request.mk · []) hinterface, rfl⟩, ⟨congrArg (Request.mk · []) hdescriptor, rfl⟩,
    ⟨congrArg (Request.mk · []) hsetup, rfl⟩⟩

end Sys2Proof.Machine

/-! PROOFS. What an operation's first step records in `FAULT`, and that a kept mode contract keeps a safe state safe
(R151, R202, R204, R240). -/

namespace Sys2Proof.Machine

open Spec

/-! ### The operations that send frames (R151, R204 case a) -/

/-- From `s` to `t` either no frame was sent and no fault recorded, or TX has grown and the fault record is the one of a
call for Data mode (R204 case a). -/
def SendsOnlyUnderContract (s t : State) : Prop :=
  (t.tx = s.tx ∧ t.fault = s.fault) ∨ (t.tx ≠ s.tx ∧ t.fault = dataFault s)

/-- A frame is never empty, so it shows on TX. -/
theorem SendsOnlyUnderContract.of_sent {s t : State} {sent : List Byte} (htx : t.tx = s.tx ++ sent)
    (hsent : sent ≠ []) (hfault : t.fault = dataFault s) : SendsOnlyUnderContract s t := by
  refine .inr ⟨fun hsame => hsent ?_, hfault⟩
  rwa [htx, List.append_right_eq_self] at hsame

theorem wireFrame_ne_nil (p : List Byte) : wireFrame p ≠ [] := by
  rw [← frame_eq_wireFrame]
  exact List.cons_ne_nil _ _

theorem reported_sends (st : Status) (flag : Bool) (m : Byte) (k : KeyFile) (s : State) :
    SendsOnlyUnderContract s (reported st flag m k s) := by
  rw [reported_eq]
  exact .of_sent rfl (List.cons_ne_nil _ _) rfl

/-- Two reports are under the contract as one is: the second checks it again and records nothing more. -/
theorem reported_reported_sends (st st' : Status) (flag flag' : Bool) (m m' : Byte) (k k' : KeyFile) (s : State) :
    SendsOnlyUnderContract s (reported st' flag' m' k' (reported st flag m k s)) := by
  rw [reported_reported]
  exact .of_sent (List.append_assoc ..) (List.cons_ne_nil _ _) rfl

/-- MS_PRESS and MS_RELEASE, which send a report of a change only (R133, R134). -/
theorem complete_updateButtons_sends (n : Byte) (s : State) :
    SendsOnlyUnderContract s (complete .ok true [] (updateButtons n s)) := by
  by_cases hsame : n = s.btn
  · rw [complete_updateButtons_of_eq hsame]
    exact .inl ⟨rfl, rfl⟩
  · rw [complete_updateButtons_of_ne hsame]
    exact .of_sent rfl (List.cons_ne_nil _ _) rfl

theorem complete_sendFramed_sends (p : List Byte) (s : State) :
    SendsOnlyUnderContract s (complete .ok true [] (sendFramed p s)) := by
  rw [complete_sendFramed]
  exact .of_sent rfl (wireFrame_ne_nil p) rfl

/-- Every operation that sends frames either sends none and records nothing, or is under the contract for Data mode. -/
theorem exec_sendsOnlyUnderContract {i : Instr} {s t : State} (hi : sendsFrames i = true) (h : exec i s = .next t) :
    SendsOnlyUnderContract s t := by
  cases i with
  | kbPress code =>
    cases hp : pressKeys code s with
    | error e =>
      rw [exec_kbPress_of_error hp] at h
      cases h
      exact .inl ⟨rfl, rfl⟩
    | ok mk =>
      rw [exec_kbPress_reported hp] at h
      cases h
      exact reported_sends ..
  | kbRelease code => cases h; exact reported_sends ..
  | kbReleaseAll => cases h; exact reported_sends ..
  | kbWrite code =>
    cases hp : pressKeys code s with
    | error e =>
      rw [exec_kbWrite_of_error hp rfl] at h
      cases h
      exact reported_sends ..
    | ok mk =>
      rw [exec_kbWrite_of_ok hp, exec_kbRelease rfl] at h
      cases h
      exact reported_reported_sends ..
  | msMove dx dy dw => cases h; exact complete_sendFramed_sends _ s
  | msClick mask =>
    change execMsClick mask s = _ at h
    rw [execMsClick, sendButtons_sendButtons] at h
    cases h
    exact .of_sent (List.append_assoc ..) (List.cons_ne_nil _ _) rfl
  | msPress mask => cases h; exact complete_updateButtons_sends _ s
  | msRelease mask => cases h; exact complete_updateButtons_sends _ s
  | rlSendReport bytes => cases h; exact complete_sendFramed_sends bytes s
  | hidSendReport id data => cases h; exact complete_sendFramed_sends (id :: data) s
  | msIsPressed | rlEnterCmd | rlSendCmd | rlExitCmd | rlSendControl => cases hi
  | hidGetInterface | hidGetDescriptor | hidSetup => cases hi

/-! ### The cases of R204 -/

/-- The cases (a) to (d) of R204, in its order, for the first step of `i` from `s` to `t`. -/
def BreaksContract (i : Instr) (s t : State) : Prop :=
  (sendsFrames i = true ∧ t.tx ≠ s.tx ∧ s.mode = .command) ∨ (i.op = .rlSendCmd ∧ s.mode = .data) ∨
    (i = .rlEnterCmd ∧ s.mode = .command) ∨ (i = .rlExitCmd ∧ s.mode = .data)

/-- From `s` to `t` MODE_VIOLATION is recorded if `c`, and nothing otherwise (R31). -/
def RecordsViolationIff (c : Prop) (s t : State) : Prop :=
  (c → t.fault = s.fault ||| 0b001#3) ∧ (¬ c → t.fault = s.fault)

theorem RecordsViolationIff.of_kept {c : Prop} {s t : State} (hc : ¬ c) (hf : t.fault = s.fault) :
    RecordsViolationIff c s t :=
  ⟨fun h => absurd h hc, fun _ => hf⟩

theorem RecordsViolationIff.of_dataFault {c : Prop} {s t : State} (hc : c ↔ s.mode = .command)
    (hf : t.fault = dataFault s) : RecordsViolationIff c s t :=
  ⟨fun h => hf.trans (if_pos (hc.mp h)), fun h => hf.trans (if_neg (mt hc.mpr h))⟩

theorem RecordsViolationIff.of_commandFault {c : Prop} {s t : State} (hc : c ↔ s.mode = .data)
    (hf : t.fault = commandFault s) : RecordsViolationIff c s t :=
  ⟨fun h => hf.trans (if_pos (hc.mp h)), fun h => hf.trans (if_neg (mt hc.mpr h))⟩

theorem eq_rlSendCmd_of_op {i : Instr} (hi : i.op = .rlSendCmd) : ∃ text, i = .rlSendCmd text := by
  cases i with
  | rlSendCmd text => exact ⟨text, rfl⟩
  | _ => cases hi

/-- The cases (b), (c) and (d) are of operations that send no frame, so (a) is the only one for one that does. -/
theorem breaksContract_of_sendsFrames {i : Instr} {s t : State} (hi : sendsFrames i = true) :
    BreaksContract i s t ↔ t.tx ≠ s.tx ∧ s.mode = .command := by
  refine ⟨?_, fun h => .inl ⟨hi, h⟩⟩
  rintro (⟨_, h⟩ | ⟨hop, _⟩ | ⟨rfl, _⟩ | ⟨rfl, _⟩)
  · exact h
  · obtain ⟨text, rfl⟩ := eq_rlSendCmd_of_op hop
    cases hi
  · cases hi
  · cases hi

theorem breaksContract_rlSendCmd {text : List Byte} {s t : State} :
    BreaksContract (.rlSendCmd text) s t ↔ s.mode = .data := by
  simp [BreaksContract, sendsFrames, Instr.op]

theorem breaksContract_rlEnterCmd {s t : State} : BreaksContract .rlEnterCmd s t ↔ s.mode = .command := by
  simp [BreaksContract, sendsFrames, Instr.op]

theorem breaksContract_rlExitCmd {s t : State} : BreaksContract .rlExitCmd s t ↔ s.mode = .data := by
  simp [BreaksContract, sendsFrames, Instr.op]

/-! ### The kept contract (R240) -/

theorem requiredMode_of_sendsFrames {i : Instr} (hi : sendsFrames i = true) : requiredMode i = some .data := by
  cases i with
  | msIsPressed | rlEnterCmd | rlSendCmd | rlExitCmd | rlSendControl => cases hi
  | hidGetInterface | hidGetDescriptor | hidSetup => cases hi
  | _ => rfl

/-- Each case of R204 is a call in the mode that R240 does not allow it in. -/
theorem not_breaksContract_of_contractKept {i : Instr} {s t : State} (hk : contractKept i s) :
    ¬ BreaksContract i s t := by
  rintro (⟨hi, _, hm⟩ | ⟨hop, hm⟩ | ⟨rfl, hm⟩ | ⟨rfl, hm⟩)
  · exact nomatch hm.symm.trans (hk .data (requiredMode_of_sendsFrames hi))
  · obtain ⟨text, rfl⟩ := eq_rlSendCmd_of_op hop
    exact nomatch hm.symm.trans (hk .command rfl)
  · exact nomatch hm.symm.trans (hk .data rfl)
  · exact nomatch hm.symm.trans (hk .command rfl)

theorem contractKept_of_anyMode {i : Instr} (hi : requiredMode i = none) (s : State) : contractKept i s :=
  fun _ hm => nomatch hi.symm.trans hm

/-! ### What the first step records (R202, R204) -/

/-- An operation that R240 lets be issued in either mode leaves the fault record. -/
theorem exec_fault_of_anyMode {i : Instr} {s t : State} (hi : requiredMode i = none) (h : exec i s = .next t) :
    t.fault = s.fault := by
  cases i with
  | rlSendControl => exact exec_rlSendControl_fault h rfl
  | msIsPressed | hidGetInterface | hidGetDescriptor | hidSetup => cases h; rfl
  | _ => cases hi

theorem exec_recordsViolation_of_sendsFrames {i : Instr} {s t : State} (hi : sendsFrames i = true)
    (h : exec i s = .next t) : RecordsViolationIff (BreaksContract i s t) s t := by
  rcases exec_sendsOnlyUnderContract hi h with ⟨htx, hf⟩ | ⟨htx, hf⟩
  · exact .of_kept (fun hb => ((breaksContract_of_sendsFrames hi).mp hb).1 htx) hf
  · exact .of_dataFault ((breaksContract_of_sendsFrames hi).trans (and_iff_right htx)) hf

/-- Settles O46: an operation sends frames, or is one of the three that check their own mode, or may be issued in either
mode. -/
theorem modeViolationExactlyInItsCases : Obligations.ModeViolationExactlyInItsCases := by
  intro i s t h
  change RecordsViolationIff (BreaksContract i s t) s t
  cases i with
  | rlEnterCmd =>
    rw [exec_rlEnterCmd_eq] at h
    cases h
    exact .of_dataFault breaksContract_rlEnterCmd rfl
  | rlSendCmd text =>
    rw [exec_rlSendCmd_eq] at h
    cases h
    exact .of_commandFault breaksContract_rlSendCmd rfl
  | rlExitCmd =>
    rw [(rlExitCmdReturnsToData s).2] at h
    cases h
    exact .of_commandFault breaksContract_rlExitCmd rfl
  | msIsPressed | rlSendControl | hidGetInterface | hidGetDescriptor | hidSetup =>
    exact .of_kept (not_breaksContract_of_contractKept (contractKept_of_anyMode rfl s)) (exec_fault_of_anyMode rfl h)
  | _ => exact exec_recordsViolation_of_sendsFrames rfl h

/-- Settles O47: a kept contract is in none of the cases of R204, so the first step leaves the fault record. -/
theorem keptContractStaysSafe : Obligations.KeptContractStaysSafe := by
  intro i s t hk hsafe h
  have hfault : t.fault = s.fault := (modeViolationExactlyInItsCases i s t h).2 (not_breaksContract_of_contractKept hk)
  exact hfault.trans hsafe

end Sys2Proof.Machine
